-- ==== Sys2Proof/Word.lean ====
section
/-! DEFINITION. The word types of the block and their plainest arithmetic (spec/00_scope.md R9 to R11). -/

namespace Sys2Proof

/-- A byte: an 8-bit unsigned value (R10). -/
abbrev Byte := BitVec 8

/-- A byte sequence; position 0 is the first byte on the bus (R10). -/
abbrev Bytes := List Byte

/-- `ceil_div(a, b)` = ⌊(a + b − 1) / b⌋, used for b ≥ 1 only (R11). -/
def ceilDiv (a b : Nat) : Nat := (a + b - 1) / b

/-- The half-open slice `s[i:j]`, clipped to the length of `s` (R10). -/
def slice (s : Bytes) (i j : Nat) : Bytes := (s.take j).drop i

end Sys2Proof
end

