-- ==== Sys2Proof/Config.lean ====
section
/-! DEFINITION. The implementation parameters (spec/00_scope.md R8), the geometry table (spec/41_geometry.md
R100, R101) and the free values the spec leaves open. -/

namespace Sys2Proof

/-- PAGE_LEN, fixed (R8, spec/10_state.md R26). -/
abbrev pageLen : Nat := 256

/-- ADDR_LIMIT = 2^24: an address is below it (R8, spec/20_memory.md R45). -/
abbrev addrLimit : Nat := 16777216

/-- FILLER, fixed by decision D4 (R8). -/
def filler : Byte := 0x00#8

/-- `fill(n)`: n copies of FILLER (R10). -/
def fill (n : Nat) : Bytes := List.replicate n filler

/-- GEOM_FAMILY (spec/10_state.md R25). -/
inductive Family where
  | familyA
  | familyB
  | familyC
  | unknown
  deriving DecidableEq, Repr

/-- The encodings of R25: FAMILY_A 0, FAMILY_B 1, FAMILY_C 2, UNKNOWN 3. -/
def Family.code : Family → BitVec 2
  | .familyA => 0#2
  | .familyB => 1#2
  | .familyC => 2#2
  | .unknown => 3#2

/-- GEOM_BUSY_METHOD (spec/10_state.md R29): which register a poll reads, and with it which bit means busy. -/
inductive BusyMethod where
  | status
  | flag
  deriving DecidableEq, Repr

/-- The encodings of R29: STATUS 0, FLAG 1. -/
def BusyMethod.code : BusyMethod → BitVec 1
  | .status => 0#1
  | .flag => 1#1

/-- What a chip family resolves to: `(family, sectorLen, subsectorLen or ABSENT, busyMethod)` (spec/41_geometry.md R100). -/
structure Descriptor where
  family : Family
  sectorLen : Nat
  /-- `none` is the spec's ABSENT. -/
  subsectorLen : Option Nat
  busy : BusyMethod
  deriving DecidableEq, Repr

/-- One entry of GEOM_TABLE, keyed by (manufacturerId, memoryType) (R100). -/
structure GeomEntry where
  mfr : Byte
  type : Byte
  desc : Descriptor
  deriving DecidableEq, Repr

/-- ERASE_STRATEGY (R8; spec/43_erase_program.md R123, R124). -/
inductive EraseStrategy where
  | sector
  | bulk
  deriving DecidableEq, Repr

/-- The parameters of R8. -/
structure Config where
  /-- READ_CHUNK: the data bytes of one read frame, at least 1. -/
  readChunk : Nat
  /-- UID_LEN: the unique-id bytes IDENTIFY clocks in. -/
  uidLen : Nat
  /-- GEOM_TABLE. -/
  geomTable : List GeomEntry
  /-- ERASE_STRATEGY. -/
  eraseStrategy : EraseStrategy
  /-- VERIFY_WINDOW: the most bytes a diagnostic window holds. -/
  verifyWindow : Nat
  /-- POLL_DELAY, in milliseconds: timing only, no rule depends on its value (R15, spec/70_reset_and_hazards.md R171). -/
  pollDelay : Nat
  deriving DecidableEq, Repr

/-- A sector or subsector length a table entry may hold (R100). -/
def legalUnitLen (n : Nat) : Bool :=
  decide (0 < n) && decide (n < 4294967296) && decide (n % pageLen = 0)

/-- One entry's conditions (R100): a named family, legal lengths. -/
def GeomEntry.wf (e : GeomEntry) : Bool :=
  decide (e.desc.family ≠ .unknown) && legalUnitLen e.desc.sectorLen &&
    (match e.desc.subsectorLen with
      | none => true
      | some n => legalUnitLen n)

/-- No two entries share a key (R100). -/
def distinctKeys : List GeomEntry → Bool
  | [] => true
  | e :: rest => rest.all (fun f => decide (¬ (f.mfr = e.mfr ∧ f.type = e.type))) && distinctKeys rest

/-- A configuration the model runs with: READ_CHUNK ≥ 1 (R8, spec/70_reset_and_hazards.md R161) and a
well-formed GEOM_TABLE (R100). Any other is refused (spec/93_implementation_defined.md U9). -/
def Config.wf (c : Config) : Bool :=
  decide (1 ≤ c.readChunk) && c.geomTable.all GeomEntry.wf && distinctKeys c.geomTable

/-- The one entry of the default GEOM_TABLE, the N25Q class (R101). -/
def n25qEntry : GeomEntry where
  mfr := 0x20#8
  type := 0xBA#8
  desc :=
    { family := .familyA
      sectorLen := 65536
      subsectorLen := some 4096
      busy := .flag }

/-- Free value: POLL_DELAY of the default configuration, for which the spec gives no default (R8). Log entry 16. -/
opaque Config.defaultPollDelay : Nat

/-- The spec's defaults (R8, R101). -/
def Config.default : Config where
  readChunk := 2048
  uidLen := 0
  geomTable := [n25qEntry]
  eraseStrategy := .sector
  verifyWindow := 16
  pollDelay := Config.defaultPollDelay

/-- UNKNOWN_DESC, fixed by decision D7 (R8, spec/41_geometry.md R103). -/
def unknownDescriptor : Descriptor where
  family := .unknown
  sectorLen := 65536
  subsectorLen := none
  busy := .status

/-- The names of the status view (spec/10_state.md R41), with PAGE_LEN (R26). -/
inductive ViewReg where
  | seqState
  | idMfr
  | idType
  | idCap
  | idUid
  | geomValid
  | geomFamily
  | pageLen
  | geomSectorLen
  | geomSubsectorValid
  | geomSubsectorLen
  | geomBusyMethod
  | warnUnknownChip
  | wstate
  | lastPoll
  | lastStatus
  | verifyValid
  | verifyMatched
  | verifyOffsetValid
  | verifyOffset
  | verifyWinRead
  | verifyWinRef
  | cs
  deriving DecidableEq, Repr

/-- Free value: what the `draw`-th status-view read of a numeric register taken while SEQ_STATE = EXEC gives, before it is
cut to the register's width (R41, spec/93_implementation_defined.md U7). Log entry 7. -/
opaque Config.freeViewNum : Nat → ViewReg → Nat

/-- Free value: byte k of what such a read of a byte-sequence register gives (R41, U7). Log entry 7. -/
opaque Config.freeViewByte : Nat → ViewReg → Nat → Byte

end Sys2Proof
end

