-- ==== Sys2Proof/Syntax.lean ====
section
/-! DEFINITION. The instructions: the nine wire commands (spec/30_encoding.md R72) and the ten host requests (R79), one
constructor per row of spec/opcode_table.json, and the two kinds of words they are carried in. -/

namespace Sys2Proof

/-- An instruction of the block. The first nine constructors are the wire commands it emits, each one frame; the other ten
are the requests a host hands it. Fields a kind ignores (R81) are no operands. -/
inductive Instr where
  /-- RDID, with the read length n = 3 + UID_LEN (R90). -/
  | rdid (n : Nat)
  /-- RDSR (R91). -/
  | rdsr
  /-- RFSR (R92). -/
  | rfsr
  /-- WREN (R93). -/
  | wren
  /-- PP: flash address and payload (R94). -/
  | pp (a : Nat) (d : Bytes)
  /-- SE: flash address (R95). -/
  | se (a : Nat)
  /-- SSE: flash address (R96). -/
  | sse (a : Nat)
  /-- BE (R97). -/
  | be
  /-- READ_DATA: flash address and read length (R98). -/
  | readData (a n : Nat)
  /-- IDENTIFY (R105). -/
  | identify
  /-- POLL (R111). -/
  | poll
  /-- WAIT_IDLE (R112). -/
  | waitIdle
  /-- ERASE_SECTOR: REQ.ADDR (R118). -/
  | eraseSector (addr : BitVec 32)
  /-- ERASE_SUBSECTOR: REQ.ADDR (R119). -/
  | eraseSubsector (addr : BitVec 32)
  /-- ERASE_BULK (R120). -/
  | eraseBulk
  /-- PAGE_PROGRAM: REQ.ADDR and REQ.DATA (R121). -/
  | pageProgram (addr : BitVec 32) (data : Bytes)
  /-- READ: REQ.ADDR and REQ.LEN (R130). -/
  | read (addr len : BitVec 32)
  /-- PROGRAM: REQ.DATA, the image from address 0 (R122). -/
  | program (data : Bytes)
  /-- VERIFY: REQ.DATA, the reference from address 0 (R132). -/
  | verify (ref : Bytes)
  deriving DecidableEq, Repr

/-- A host request as the channel carries it (R79): KIND 4 bits, ADDR and LEN 32 bits, DATA a byte sequence. -/
structure Request where
  kind : BitVec 4
  addr : BitVec 32
  len : BitVec 32
  data : Bytes
  deriving DecidableEq, Repr

/-- The words of an instruction: a wire frame (R73) or a host request (R79). -/
inductive Words where
  | frame (f : Bytes)
  | request (r : Request)
  deriving DecidableEq, Repr

/-- Why words name no instruction. -/
inductive Reject where
  /-- A frame is a non-empty byte sequence (spec/00_scope.md R13). -/
  | emptyFrame
  /-- Byte 0 is none of the nine opcodes (R77, R78). -/
  | unknownOpcode (op : Byte)
  /-- The length does not fit the opcode's format (R78). -/
  | badLength (op : Byte) (len : Nat)
  /-- A byte of the read phase is not FILLER (R73). -/
  | badFiller (op : Byte)
  /-- KIND 0x0 or 0xB to 0xF (R80). -/
  | reservedKind (kind : BitVec 4)
  deriving DecidableEq, Repr

/-- The wire commands among the instructions (R72). -/
def Instr.isWire : Instr → Bool
  | .rdid _ | .rdsr | .rfsr | .wren | .pp _ _ | .se _ | .sse _ | .be | .readData _ _ => true
  | .identify | .poll | .waitIdle | .eraseSector _ | .eraseSubsector _ | .eraseBulk | .pageProgram _ _
  | .read _ _ | .program _ | .verify _ => false

/-- The destructive frames: opcodes 0x02, 0xD8, 0x20, 0xC7 (spec/00_scope.md glossary, spec/20_memory.md R54). -/
def Instr.isDestructive : Instr → Bool
  | .pp _ _ | .se _ | .sse _ | .be => true
  | .rdid _ | .rdsr | .rfsr | .wren | .readData _ _ | .identify | .poll | .waitIdle | .eraseSector _ | .eraseSubsector _
  | .eraseBulk | .pageProgram _ _ | .read _ _ | .program _ | .verify _ => false

/-- The request that writes VERIFY_VALID <- 0 before its checks: VERIFY (spec/44_read_verify.md R132). -/
def Instr.clearsVerify : Instr → Bool
  | .verify _ => true
  | .rdid _ | .rdsr | .rfsr | .wren | .pp _ _ | .se _ | .sse _ | .be | .readData _ _ | .identify | .poll | .waitIdle
  | .eraseSector _ | .eraseSubsector _ | .eraseBulk | .pageProgram _ _ | .read _ _ | .program _ => false

end Sys2Proof
end

