-- ==== Sys2Proof/WellFormed.lean ====
section
/-! DEFINITION. Well-formed instructions: the operand conditions of the wire commands (spec/40_frame_codec.md R90 to R98) and
the field widths of the host requests (spec/30_encoding.md R79). -/

namespace Sys2Proof

/-- A byte sequence REQ.DATA can hold: at most 2^32 − 1 bytes (R79). -/
def dataFits (d : Bytes) : Bool := decide (d.length < 4294967296)

/-- A request the channel can carry: its DATA has a length R79 allows; the other fields' widths are their types. -/
def Request.fits (r : Request) : Bool := dataFits r.data

/-- The payload conditions of PP (R94): 1 to 256 bytes, inside one page, at an address below 2^24. -/
def ppOperandsOk (a : Nat) (d : Bytes) : Bool :=
  decide (a < addrLimit) && decide (1 ≤ d.length) && decide (d.length ≤ pageLen) &&
    decide (a % pageLen + d.length ≤ pageLen)

/-- The range conditions of READ_DATA (R98). -/
def readOperandsOk (c : Config) (a n : Nat) : Bool :=
  decide (1 ≤ n) && decide (n ≤ c.readChunk) && decide (a + n ≤ addrLimit)

/-- Well-formed under a configuration. What a wire command asks of the state (the alignment of SE and SSE to the geometry's
unit, R95, R96) is no matter of syntax; the invariant of Safety.lean says it of every frame sent. -/
def Instr.wf (c : Config) : Instr → Bool
  | .rdid n => decide (n = 3 + c.uidLen)
  | .rdsr => true
  | .rfsr => true
  | .wren => true
  | .pp a d => ppOperandsOk a d
  | .se a => decide (a < addrLimit)
  | .sse a => decide (a < addrLimit)
  | .be => true
  | .readData a n => readOperandsOk c a n
  | .identify => true
  | .poll => true
  | .waitIdle => true
  | .eraseSector _ => true
  | .eraseSubsector _ => true
  | .eraseBulk => true
  | .pageProgram _ d => dataFits d
  | .read _ _ => true
  | .program d => dataFits d
  | .verify d => dataFits d

end Sys2Proof
end

