-- ==== Sys2Proof/Decode.lean ====
section
/-! DEFINITION. The Command Frame Codec (spec/40_frame_codec.md R85 to R89), the decoder of wire frames (spec/30_encoding.md
R78) and of host requests (R79, R80), and after them the encoder. -/

namespace Sys2Proof

/-! ## The codec's pure functions -/

/-- `le24(a)`: the address as 3 bytes, least significant first (R75). Meant for a < 2^24. -/
def le24 (a : Nat) : Bytes :=
  [BitVec.ofNat 8 a, BitVec.ofNat 8 (a / 256), BitVec.ofNat 8 (a / 65536)]

/-- The address of three bytes (R75). -/
def addrOf (b0 b1 b2 : Byte) : Nat := b0.toNat + 256 * b1.toNat + 65536 * b2.toNat

/-- `decodeAddr`, defined on sequences of exactly three bytes (R75, R88). -/
def decodeAddr : Bytes → Option Nat
  | [b0, b1, b2] => some (addrOf b0 b1 b2)
  | _ => none

/-- `encode(op, a?, p)` (R85): opcode, address when present, payload. `none` is its InvalidArgument (R86): an address of 2^24
or more builds no frame. -/
def codecEncode (op : Byte) (a : Option Nat) (p : Bytes) : Option Bytes :=
  match a with
  | none => some (op :: p)
  | some x => if x < addrLimit then some (op :: (le24 x ++ p)) else none

/-- `decode(raw, skip)` (R87): the bytes after the first `skip`; empty when there are none. -/
def codecDecode (raw : Bytes) (skip : Nat) : Bytes := raw.drop skip

/-! ## Opcodes and kinds -/

/-- The nine opcodes (R72). -/
def opRDID : Byte := 0x9F#8
def opRDSR : Byte := 0x05#8
def opRFSR : Byte := 0x70#8
def opWREN : Byte := 0x06#8
def opPP : Byte := 0x02#8
def opSE : Byte := 0xD8#8
def opSSE : Byte := 0x20#8
def opBE : Byte := 0xC7#8
def opREAD : Byte := 0x03#8

/-- The opcodes in the order of R72. -/
def wireOpcodes : List Byte := [opRDID, opRDSR, opRFSR, opWREN, opPP, opSE, opSSE, opBE, opREAD]

/-! ## Decoding -/

/-- An F_OP frame (R73): nothing after the opcode. -/
def decodeBare (op : Byte) (i : Instr) (rest : Bytes) : Except Reject Instr :=
  match rest with
  | [] => .ok i
  | _ :: _ => .error (.badLength op (1 + rest.length))

/-- The read phase of a frame: filler bytes only, at least `least` of them (R73, R78). -/
def decodeReadPhase (op : Byte) (header least : Nat) (p : Bytes) (k : Nat → Instr) : Except Reject Instr :=
  if p.length < least then .error (.badLength op (header + p.length))
  else if p = fill p.length then .ok (k p.length)
  else .error (.badFiller op)

/-- A status frame: F_OP_RD(1) (R91, R92). -/
def decodeStatus (op : Byte) (i : Instr) (rest : Bytes) : Except Reject Instr :=
  if rest.length = 1 then decodeReadPhase op 1 1 rest (fun _ => i)
  else .error (.badLength op (1 + rest.length))

/-- A frame with an address: the 3 address bytes, then what `k` makes of the address and the bytes after it (R73). -/
def decodeAddressed (op : Byte) (rest : Bytes) (k : Nat → Bytes → Except Reject Instr) : Except Reject Instr :=
  match rest with
  | b0 :: b1 :: b2 :: p => k (addrOf b0 b1 b2) p
  | _ => .error (.badLength op (1 + rest.length))

/-- An F_OP_ADDR frame: nothing after the address (R73). -/
def decodeNoPayload (op : Byte) (i : Instr) (p : Bytes) : Except Reject Instr :=
  match p with
  | [] => .ok i
  | _ :: _ => .error (.badLength op (4 + p.length))

/-- The payload of PP: 1 to 256 bytes (R72, R94). -/
def decodePayload (a : Nat) (p : Bytes) : Except Reject Instr :=
  if 1 ≤ p.length ∧ p.length ≤ pageLen then .ok (.pp a p) else .error (.badLength opPP (4 + p.length))

/-- Decoding a frame seen on the bus (R78): byte 0 selects the row and with it the format, the rest follows from the length. -/
def decodeFrame (f : Bytes) : Except Reject Instr :=
  match f with
  | [] => .error .emptyFrame
  | op :: rest =>
    if op = opRDID then decodeReadPhase op 1 3 rest .rdid
    else if op = opRDSR then decodeStatus op .rdsr rest
    else if op = opRFSR then decodeStatus op .rfsr rest
    else if op = opWREN then decodeBare op .wren rest
    else if op = opPP then decodeAddressed op rest decodePayload
    else if op = opSE then decodeAddressed op rest (fun a p => decodeNoPayload op (.se a) p)
    else if op = opSSE then decodeAddressed op rest (fun a p => decodeNoPayload op (.sse a) p)
    else if op = opBE then decodeBare op .be rest
    else if op = opREAD then decodeAddressed op rest (fun a p => decodeReadPhase op 4 1 p (.readData a))
    else .error (.unknownOpcode op)

/-- The KIND map of R79; the fields a kind ignores are not looked at (R81), a reserved KIND is rejected (R80). -/
def decodeRequest (r : Request) : Except Reject Instr :=
  match r.kind.toNat with
  | 1 => .ok .identify
  | 2 => .ok .poll
  | 3 => .ok .waitIdle
  | 4 => .ok (.eraseSector r.addr)
  | 5 => .ok (.eraseSubsector r.addr)
  | 6 => .ok .eraseBulk
  | 7 => .ok (.pageProgram r.addr r.data)
  | 8 => .ok (.read r.addr r.len)
  | 9 => .ok (.program r.data)
  | 10 => .ok (.verify r.data)
  | _ => .error (.reservedKind r.kind)

/-- The decoder, total on any words. -/
def decode : Words → Except Reject Instr
  | .frame f => decodeFrame f
  | .request r => decodeRequest r

/-! ## Encoding -/

/-- The frame of a wire command (R73, R90 to R98). `none`: no wire command, or an address encode refuses (R86). -/
def encodeFrame : Instr → Option Bytes
  | .rdid n => codecEncode opRDID none (fill n)
  | .rdsr => codecEncode opRDSR none (fill 1)
  | .rfsr => codecEncode opRFSR none (fill 1)
  | .wren => codecEncode opWREN none []
  | .pp a d => codecEncode opPP (some a) d
  | .se a => codecEncode opSE (some a) []
  | .sse a => codecEncode opSSE (some a) []
  | .be => codecEncode opBE none []
  | .readData a n => codecEncode opREAD (some a) (fill n)
  | .identify | .poll | .waitIdle | .eraseSector _ | .eraseSubsector _ | .eraseBulk | .pageProgram _ _
  | .read _ _ | .program _ | .verify _ => none

/-- The request of a host instruction (R79), its ignored fields 0 or empty. `none`: a wire command. -/
def encodeRequest : Instr → Option Request
  | .identify => some ⟨0x1#4, 0, 0, []⟩
  | .poll => some ⟨0x2#4, 0, 0, []⟩
  | .waitIdle => some ⟨0x3#4, 0, 0, []⟩
  | .eraseSector a => some ⟨0x4#4, a, 0, []⟩
  | .eraseSubsector a => some ⟨0x5#4, a, 0, []⟩
  | .eraseBulk => some ⟨0x6#4, 0, 0, []⟩
  | .pageProgram a d => some ⟨0x7#4, a, 0, d⟩
  | .read a l => some ⟨0x8#4, a, l, []⟩
  | .program d => some ⟨0x9#4, 0, 0, d⟩
  | .verify d => some ⟨0xA#4, 0, 0, d⟩
  | .rdid _ | .rdsr | .rfsr | .wren | .pp _ _ | .se _ | .sse _ | .be | .readData _ _ => none

/-- The words of an instruction. -/
def encode (i : Instr) : Option Words :=
  if i.isWire then (encodeFrame i).map .frame else (encodeRequest i).map .request

/-! ## Words numbered as spec/opcode_table.json numbers them -/

/-- The first `n` bytes of the word `w`, byte 0 the least significant. -/
def wordBytes : Nat → Nat → Bytes
  | 0, _ => []
  | n + 1, w => BitVec.ofNat 8 w :: wordBytes n (w / 256)

/-- The frame that begins with `f` and goes on with zero bytes, the shortest one that decodes (at most 4 more are ever
needed); none when no length will do. -/
def zeroExtended (f : Bytes) : Option Instr :=
  (List.range 5).findSome? (fun k => (decodeFrame (f ++ List.replicate k 0#8)).toOption)

/-- The request a word of KIND bits names, its other fields zero (R79). -/
def kindWord (w : Nat) : Option Instr :=
  if w < 16 then (decodeRequest ⟨BitVec.ofNat 4 w, 0, 0, []⟩).toOption else none

/-- The instruction of a row of spec/opcode_table.json. The table has two spaces, "wire frame byte 0" (8 bits) and "host
request KIND" (4 bits), whose values overlap (0x02, 0x03, 0x05, 0x06): a word of fewer than 8 bits is a KIND; a word of 8 or
more is a frame first and a KIND where no frame begins with it. Log entry 9. -/
def decodeTableWord (nbits w : Nat) : Option Instr :=
  if nbits < 8 then kindWord w
  else
    match zeroExtended (wordBytes (nbits / 8) w) with
    | some i => some i
    | none => kindWord w

end Sys2Proof
end

