-- ==== Sys2Proof/Machine/State.lean ====
section
/-! DEFINITION. The state of the block (spec/10_state.md R17 to R44), the reasons a step can stop, and the state right after
reset (R43, spec/70_reset_and_hazards.md R159). Plain data throughout. -/

namespace Sys2Proof.Machine

/-- SEQ_STATE (R18): READY accepts a request, EXEC is executing one. -/
inductive SeqState where
  | ready
  | exec
  deriving DecidableEq, Repr

/-- The encodings of R18: READY 0, EXEC 1. -/
def SeqState.code : SeqState → BitVec 1
  | .ready => 0#1
  | .exec => 1#1

/-- WSTATE (R32). The 2-bit value 3 is never written and is not expressible (spec/93_implementation_defined.md U16). -/
inductive WState where
  | unknown
  | busy
  | idle
  deriving DecidableEq, Repr

/-- The encodings of R32: UNKNOWN 0, BUSY 1, IDLE 2. -/
def WState.code : WState → BitVec 2
  | .unknown => 0#2
  | .busy => 1#2
  | .idle => 2#2

/-- The status codes (spec/60_exceptions.md R138). Codes 6 and 7 are never produced and are not expressible (U16). -/
inductive Status where
  | ok
  | invalidArgument
  | transportFailure
  | notResolved
  | invalidState
  | invalidRequest
  deriving DecidableEq, Repr

/-- The 3-bit codes of R138. -/
def Status.code : Status → BitVec 3
  | .ok => 0#3
  | .invalidArgument => 1#3
  | .transportFailure => 2#3
  | .notResolved => 3#3
  | .invalidState => 4#3
  | .invalidRequest => 5#3

/-- The error kinds a request can raise (spec/00_scope.md R14). -/
inductive ErrKind where
  | invalidRequest
  | invalidState
  | notResolved
  | invalidArgument
  | transportFailure
  deriving DecidableEq, Repr

/-- code(E) of the error entry (R138, R147). -/
def ErrKind.status : ErrKind → Status
  | .invalidRequest => .invalidRequest
  | .invalidState => .invalidState
  | .notResolved => .notResolved
  | .invalidArgument => .invalidArgument
  | .transportFailure => .transportFailure

/-- The lines of the requests' pseudocode at which the sequencer can stand between two steps (R22): the first line of the
accepted request, and each line that sends a frame. -/
inductive Line where
  /-- The first line of the latched request: its checks. -/
  | entry
  /-- SendRDID of IDENTIFY (R105). -/
  | sendRdid
  /-- PollOnce of POLL (R111). -/
  | pollOnce
  /-- PollOnce inside WaitIdle's repeat loop (R110). -/
  | waitIdle
  /-- SendWREN of a write step (R117). -/
  | sendWren
  /-- The destructive frame D of a write step (R117). -/
  | destructive
  /-- SendREAD of one chunk (R129). -/
  | sendRead
  deriving DecidableEq, Repr

/-- Which loop a write step belongs to: none (the standalone requests), ErasePhase (R123, R124) or ProgramPhase (R125). -/
inductive Phase where
  | single
  | erase
  | program
  deriving DecidableEq, Repr

/-- The place inside the request's pseudocode (R22); the loop indices stand in the working registers. -/
structure Position where
  line : Line
  phase : Phase
  deriving DecidableEq, Repr

/-- The working registers (R21): loop index, loop bound, flash address, response and byte. The spec gives index and bound 32
bits and the address 24 when sent; they are exact naturals here and the invariant says that they fit (log entry 8). -/
structure WorkRegs where
  i : Nat
  n : Nat
  a : Nat
  resp : Bytes
  b : Byte
  deriving DecidableEq, Repr

/-- ID_MFR, ID_TYPE, ID_CAP, ID_UID (R23). They have a value while GEOM_VALID = 1. -/
structure IdRegs where
  mfr : Byte
  type : Byte
  cap : Byte
  uid : Bytes
  deriving DecidableEq, Repr

/-- GEOM_VALID, GEOM_FAMILY, GEOM_SECTOR_LEN, GEOM_SUBSECTOR_VALID, GEOM_SUBSECTOR_LEN, GEOM_BUSY_METHOD (R24 to R29). -/
structure GeomRegs where
  valid : Bool
  family : Family
  sectorLen : BitVec 32
  subValid : Bool
  subLen : BitVec 32
  busy : BusyMethod
  deriving DecidableEq, Repr

/-- LAST_POLL (R33). `valid` is the model's own bit for R44's "no value": the spec gives LAST_POLL no valid bit (log entry 6). -/
structure LastPoll where
  value : Byte
  valid : Bool
  deriving DecidableEq, Repr

/-- VERIFY_VALID, VERIFY_MATCHED, VERIFY_OFFSET_VALID, VERIFY_OFFSET (R35), VERIFY_WIN_READ, VERIFY_WIN_REF (R36). -/
structure VerifyRegs where
  valid : Bool
  matched : Bool
  offsetValid : Bool
  offset : BitVec 32
  winRead : Bytes
  winRef : Bytes
  deriving DecidableEq, Repr

/-- The transport's answer to a frame (spec/00_scope.md R7): bytes, of any length, or `fail`. -/
inductive Answer where
  | bytes (r : Bytes)
  | fail
  deriving DecidableEq, Repr

/-- One bus event of TRACE (R42): the frame and its answer. -/
structure Event where
  frame : Bytes
  answer : Answer
  deriving DecidableEq, Repr

/-- What a mismatching VERIFY reports (spec/44_read_verify.md R132, R134): the offset and the two windows. -/
structure Mismatch where
  offset : BitVec 32
  winRead : Bytes
  winRef : Bytes
  deriving DecidableEq, Repr

/-- The fields of a response besides STATUS (spec/30_encoding.md R82). -/
inductive Fields where
  | none
  /-- IDENTIFY: the identification registers, the descriptor, the warning. GEOM_SUBSECTOR_LEN has no value when absent. -/
  | identify (ident : IdRegs) (family : Family) (sectorLen : BitVec 32) (subLen : Option (BitVec 32))
      (busy : BusyMethod) (warn : Bool)
  /-- POLL: WSTATE and LAST_POLL. -/
  | poll (wstate : WState) (lastPoll : Byte)
  /-- WAIT_IDLE: LAST_POLL. -/
  | waitIdle (lastPoll : Byte)
  /-- READ: DATA = RBUF. -/
  | read (data : Bytes)
  /-- VERIFY: matched, or the mismatch. -/
  | verify (mismatch : Option Mismatch)
  deriving DecidableEq, Repr

/-- A response to the host (R82): STATUS, and the fields when it is OK. -/
structure Response where
  status : Status
  fields : Fields
  deriving DecidableEq, Repr

/-- The state of the block, with the two channels it is connected to. -/
structure State where
  /-- The configuration (spec/00_scope.md R8). No step writes it; it is no state of the block (R17), see log entry 4. -/
  cfg : Config
  /-- SEQ_STATE (R18). -/
  seqState : SeqState
  /-- REQ (R19). Its DATA is at most 2^32 − 1 bytes by the invariant (log entry 23). -/
  req : Request
  /-- The place in the request's pseudocode (R22). -/
  pos : Position
  /-- The working registers (R21). -/
  work : WorkRegs
  /-- The identification registers (R23). -/
  ident : IdRegs
  /-- The geometry descriptor registers (R24 to R29). -/
  geom : GeomRegs
  /-- WARN_UNKNOWN_CHIP (R31). -/
  warn : Bool
  /-- WSTATE (R32). -/
  wstate : WState
  /-- LAST_POLL (R33). -/
  poll : LastPoll
  /-- LAST_STATUS (R34). -/
  lastStatus : Status
  /-- The verify result registers (R35, R36). -/
  verify : VerifyRegs
  /-- CS (R37): true = asserted. -/
  cs : Bool
  /-- RBUF (R38). -/
  rbuf : Bytes
  /-- TRACE (R42), oldest event first. -/
  trace : List Event
  /-- The requests the host holds and will offer, oldest first (R20). Log entry 3. -/
  hostQ : List Request
  /-- The transport's answers not yet taken, oldest first (spec/00_scope.md R7). Log entry 2. -/
  answers : List Answer
  /-- The responses given so far, oldest first (R42, R82). Log entry 3. -/
  responses : List Response
  deriving DecidableEq, Repr

/-- Why the machine stops with a fault. -/
inductive Fault where
  /-- Raised by a wire command whose address is 2^24 or more: encode's caller contract violation (spec/40_frame_codec.md R86,
  U12). No request reaches it. Safe. -/
  | addressOutOfRange
  /-- Raised by step when the position names no line of the latched request's pseudocode. No run reaches it (log entry 19). Safe. -/
  | noSuchLine
  /-- Raised by a status-view read of a register that has no value (R41, R44, U8). Safe. -/
  | noValue (r : ViewReg)
  deriving DecidableEq, Repr

/-- Why the machine refuses. -/
inductive Refusal where
  /-- The instruction has no meaning yet. Raised by no arm of this model. Safe. -/
  | notModelled (mnemonic : String)
  /-- Raised by step when the configuration is not well-formed (spec/41_geometry.md R100, U9: "refuse"). Safe. -/
  | illFormedConfig
  /-- Raised by the reset event while an Xfer is in progress (spec/70_reset_and_hazards.md R168, U1: "refuse"). Safe. -/
  | resetDuringXfer
  deriving DecidableEq, Repr

/-- The request latch before any request: DESIGN CHOICE zeros, the spec gives no value (R19, R44; log entry 5). -/
def noRequest : Request := ⟨0#4, 0#32, 0#32, []⟩

/-- The state right after reset under a configuration (R43). The values the spec gives: SEQ_STATE READY, GEOM_VALID 0,
WARN_UNKNOWN_CHIP 0, WSTATE UNKNOWN, LAST_STATUS OK, VERIFY_VALID 0, CS 0, RBUF empty, TRACE empty. Every other register has
no value there and is zero here (DESIGN CHOICE, unsafe, log entry 5); the status view does not give those zeros out. -/
def State.resetWith (c : Config) : State where
  cfg := c
  seqState := .ready
  req := noRequest
  pos := { line := .entry, phase := .single }
  work := { i := 0, n := 0, a := 0, resp := [], b := 0#8 }
  ident := { mfr := 0#8, type := 0#8, cap := 0#8, uid := [] }
  geom := { valid := false, family := .familyA, sectorLen := 0#32, subValid := false, subLen := 0#32, busy := .status }
  warn := false
  wstate := .unknown
  poll := { value := 0#8, valid := false }
  lastStatus := .ok
  verify := { valid := false, matched := false, offsetValid := false, offset := 0#32, winRead := [], winRef := [] }
  cs := false
  rbuf := []
  trace := []
  hostQ := []
  answers := []
  responses := []

/-- The machine right after reset, with the spec's default configuration. -/
def State.reset : State := State.resetWith Config.default

end Sys2Proof.Machine
end

