-- ==== Sys2Proof/Machine/Flags.lean ====
section
/-! DEFINITION. The one flag computation of the block: what a polled register byte says of the chip (spec/42_write_completion.md
R107). -/

namespace Sys2Proof.Machine

/-- `checkBusy(method, b)` (R107): STATUS, bit 0 = 1 means busy; FLAG, bit 7 = 0 means busy. -/
def checkBusy (m : BusyMethod) (b : Byte) : WState :=
  match m with
  | .status => if b.getLsbD 0 then .busy else .idle
  | .flag => if b.getLsbD 7 then .idle else .busy

end Sys2Proof.Machine
end

