-- ==== Sys2Proof/Machine/Operands.lean ====
section
/-! DEFINITION. The operand forms: the argument checks of spec/60_exceptions.md R142, the loop bounds, addresses and slices of
the erase, program and read loops (spec/43_erase_program.md R122 to R126, spec/44_read_verify.md R129), all exact arithmetic
on naturals (spec/45_control_and_system.md R135). -/

namespace Sys2Proof.Machine

/-! ## Argument checks (R142): `true` where the request goes on -/

/-- ERASE_SECTOR (R118): below 2^24 and sector-aligned. -/
def eraseSectorOk (a : BitVec 32) (g : GeomRegs) : Bool :=
  decide (a.toNat < addrLimit) && decide (a.toNat % g.sectorLen.toNat = 0)

/-- ERASE_SUBSECTOR (R119): a subsector granularity, below 2^24 and subsector-aligned. -/
def eraseSubsectorOk (a : BitVec 32) (g : GeomRegs) : Bool :=
  g.subValid && decide (a.toNat < addrLimit) && decide (a.toNat % g.subLen.toNat = 0)

/-- PAGE_PROGRAM (R121): 1 to 256 bytes, below 2^24, inside one page. -/
def pageProgramOk (a : BitVec 32) (d : Bytes) : Bool :=
  decide (d.length ≠ 0) && decide (d.length ≤ pageLen) && decide (a.toNat < addrLimit) &&
    decide (a.toNat % pageLen + d.length ≤ pageLen)

/-- READ (R130): the address and the range inside 24 bits. -/
def readOk (a l : BitVec 32) : Bool :=
  decide (a.toNat < addrLimit) && decide (a.toNat + l.toNat ≤ addrLimit)

/-- PROGRAM and VERIFY (R122, R132): at most 2^24 bytes. -/
def imageOk (d : Bytes) : Bool := decide (d.length ≤ addrLimit)

/-! ## Erase and program loops -/

/-- pageCount (R122). -/
def pageCount (l : Nat) : Nat := ceilDiv l pageLen

/-- sectorCount (R122). -/
def sectorCount (l : Nat) (g : GeomRegs) : Nat := ceilDiv l g.sectorLen.toNat

/-- The number of write steps of ErasePhase: one per sector (R123), or one for the whole chip when there is any sector (R124). -/
def eraseSteps (c : Config) (l : Nat) (g : GeomRegs) : Nat :=
  match c.eraseStrategy with
  | .sector => sectorCount l g
  | .bulk => min (sectorCount l g) 1

/-- The address of erase step i under SECTOR (R123). -/
def eraseAddr (g : GeomRegs) (i : Nat) : Nat := i * g.sectorLen.toNat

/-- The address of page i (R125). -/
def pageAddr (i : Nat) : Nat := i * pageLen

/-- The payload of the page at address a: `data[a : min(a + PAGE_LEN, L)]`, the last one short (R125, R126). -/
def pageSlice (d : Bytes) (a : Nat) : Bytes := slice d a (min (a + pageLen) d.length)

/-! ## Chunked reads -/

/-- The number of read-data frames for L bytes (R129). -/
def chunkCount (c : Config) (l : Nat) : Nat := ceilDiv l c.readChunk

/-- The offset of chunk k (R129). -/
def chunkOff (c : Config) (k : Nat) : Nat := k * c.readChunk

/-- The length of chunk k of L bytes (R129); the final chunk may be shorter. -/
def chunkLen (c : Config) (l k : Nat) : Nat := min c.readChunk (l - chunkOff c k)

/-! ## Capacity and DUMP -/

/-- CAPACITY_BITS (spec/10_state.md R30, spec/41_geometry.md R104). -/
def capBits (code : Byte) : Nat := 2 ^ (code.toNat + 3)

/-- CAPACITY_BYTES (R30, R104). -/
def capBytes (code : Byte) : Nat := 2 ^ code.toNat

/-! ## Verify -/

/-- The loop of compare (spec/44_read_verify.md R133): the least offset at which the two differ, counting from `k`; `none` is a match.
Meant for equal lengths. -/
def firstMismatch (k : Nat) : Bytes → Bytes → Option Nat
  | x :: xs, y :: ys => if x = y then firstMismatch (k + 1) xs ys else some k
  | _, _ => none

/-- `compare(r, ref)` of R133, from offset 0. -/
def compareBytes (r ref : Bytes) : Option Nat := firstMismatch 0 r ref

/-- The window of SetWindow (R134): `buf[off : min(off + VERIFY_WINDOW, L)]`. -/
def verifyWindow (c : Config) (l : Nat) (buf : Bytes) (off : Nat) : Bytes := slice buf off (min (off + c.verifyWindow) l)

end Sys2Proof.Machine
end

