-- ==== Sys2Proof/Machine/Ops.lean ====
section
/-! DEFINITION. The shared operations: the updates of State, accepting a request (spec/10_state.md R20), ending one
(spec/00_scope.md R14), the error entry (spec/60_exceptions.md R147), the bus primitive Xfer (R13), and the starts of the loops the
requests share. -/

namespace Sys2Proof.Machine

/-! ## Updates of State -/

/-- Move to another line of the pseudocode (R22). -/
def State.goto (s : State) (l : Line) (p : Phase) : State := { s with pos := { line := l, phase := p } }

/-- Set the loop index, the loop bound and the flash address (R21). -/
def State.setLoop (s : State) (i n a : Nat) : State := { s with work := { s.work with i := i, n := n, a := a } }

/-- `resp <- ...` (R21). -/
def State.setResp (s : State) (r : Bytes) : State := { s with work := { s.work with resp := r } }

/-- `WSTATE <- w` (R32). -/
def State.setWState (s : State) (w : WState) : State := { s with wstate := w }

/-- PollOnce's writes: `b`, LAST_POLL and WSTATE (spec/42_write_completion.md R109). -/
def State.setPoll (s : State) (b : Byte) (w : WState) : State :=
  { s with work := { s.work with b := b }, poll := { value := b, valid := true }, wstate := w }

/-- CS <- 1 (R37). -/
def State.assertCs (s : State) : State := { s with cs := true }

/-- The end of an Xfer (spec/00_scope.md R13 steps 2 to 4): the answer is taken, CS <- 0, the event appended to TRACE. -/
def State.endXfer (s : State) (f : Bytes) (a : Answer) (rest : List Answer) : State :=
  { s with cs := false, answers := rest, trace := s.trace ++ [{ frame := f, answer := a }] }

/-- The identification and descriptor registers, and the warning (spec/41_geometry.md R105). -/
def State.setIdent (s : State) (i : IdRegs) (g : GeomRegs) (w : Bool) : State :=
  { s with ident := i, geom := g, warn := w }

/-- `RBUF <- ...` (R38). -/
def State.setRbuf (s : State) (d : Bytes) : State := { s with rbuf := d }

/-- The verify result registers (R35, R36). -/
def State.setVerify (s : State) (v : VerifyRegs) : State := { s with verify := v }

/-- The end of a request (spec/00_scope.md R14): LAST_STATUS, the one response, SEQ_STATE <- READY. -/
def State.finish (s : State) (st : Status) (f : Fields) : State :=
  { s with lastStatus := st, responses := s.responses ++ [{ status := st, fields := f }], seqState := .ready }

/-- The accept step (R20): REQ <- the request the host offers, SEQ_STATE <- EXEC, at the request's first line. -/
def State.accept (s : State) (r : Request) (rest : List Request) : State :=
  { s with req := r, seqState := .exec, pos := { line := .entry, phase := .single }, hostQ := rest }

/-! ## Ending a request -/

/-- `respond(OK, fields)` (R14). -/
def respond (f : Fields) (s : State) : State := s.finish .ok f

/-- ErrorEntry(E) (R147): WSTATE <- UNKNOWN on a TransportFailure; LAST_STATUS; the response with the status alone; READY.
Nothing else is written, no frame is sent. There is no return from it (R149). -/
def errorEntry (e : ErrKind) (s : State) : State :=
  (if e = .transportFailure then s.setWState .unknown else s).finish e.status .none

/-- `raise E` (R14): the request ends at once through the error entry. -/
def raise (e : ErrKind) (s : State) : Host.Outcome State Fault Refusal := .next (errorEntry e s)

/-! ## The bus primitive -/

/-- What an Xfer comes to. -/
inductive XferResult where
  /-- The transport has not answered: CS stays asserted, the sequencer waits at the same line (R13 step 2; U11). -/
  | waiting (s : State)
  /-- `fail`, or an answer of another length than the frame's: TransportFailure is to be raised (R13 step 5, R143). -/
  | failed (s : State)
  /-- The answer R (R13 step 6). -/
  | answered (r : Bytes) (s : State)

/-- `Xfer(F)` (R13). -/
def xfer (f : Bytes) (s : State) : XferResult :=
  match s.answers with
  | [] => .waiting s.assertCs
  | a :: rest =>
    match a with
    | .fail => .failed (s.assertCs.endXfer f a rest)
    | .bytes r =>
      if r.length = f.length then .answered r (s.assertCs.endXfer f a rest)
      else .failed (s.assertCs.endXfer f a rest)

/-- A wire command: build the frame (spec/40_frame_codec.md R85), send it, put the answer into `resp`, then `k`. An address
encode refuses is a fault of the model (R86); a failed Xfer raises TransportFailure. -/
def sendFrame (f : Option Bytes) (k : State → State) (s : State) : Host.Outcome State Fault Refusal :=
  match f with
  | none => .fault .addressOutOfRange
  | some f =>
    match xfer f s with
    | .waiting t => .next t
    | .failed t => raise .transportFailure t
    | .answered r t => .next (k (t.setResp r))

/-- `delay(POLL_DELAY)`: no effect (spec/00_scope.md R15, spec/70_reset_and_hazards.md R171). -/
def delay (_milliseconds : Nat) (s : State) : State := s

/-! ## The loops -/

/-- WriteStep number i of n, for the address a (spec/43_erase_program.md R117): it begins with WaitIdle. -/
def startWriteStep (p : Phase) (i n a : Nat) (s : State) : State := (s.setLoop i n a).goto .waitIdle p

/-- ProgramPhase over L bytes (R125); with no page the request responds. -/
def startProgramPhase (l : Nat) (s : State) : State :=
  if pageCount l = 0 then respond .none s else startWriteStep .program 0 (pageCount l) (pageAddr 0) s

/-- ErasePhase over L bytes (R123, R124), then ProgramPhase. -/
def startErasePhase (l : Nat) (s : State) : State :=
  if eraseSteps s.cfg l s.geom = 0 then startProgramPhase l s
  else startWriteStep .erase 0 (eraseSteps s.cfg l s.geom) (eraseAddr s.geom 0) s

/-- The start of ChunkedRead (spec/44_read_verify.md R129): RBUF <- [], then the first chunk. -/
def beginChunks (s : State) : State := (s.setRbuf []).goto .sendRead .single

/-- EnsureIdle, then ChunkedRead(a, L) for L ≥ 1 (spec/42_write_completion.md R114, R129): no poll when WSTATE = IDLE already. -/
def startRead (a l : Nat) (s : State) : State :=
  let t := s.setLoop 0 (chunkCount s.cfg l) a
  if s.wstate = .idle then beginChunks t else t.goto .waitIdle .single

end Sys2Proof.Machine
end

