-- ==== Sys2Proof/Machine/Wire.lean ====
section
/-! DEFINITION. The nine wire commands (spec/40_frame_codec.md R90 to R98), each one frame sent with one Xfer. The lines a request's
pseudocode runs on the answer are in Machine/Sequencer.lean. Operand conditions hold at every place the sequencer sends
one, and are not checked again (R94; log entry 21). -/

namespace Sys2Proof.Machine

/-- SendRDID (R90): n = 3 + UID_LEN bytes are clocked in. -/
def execRdid (n : Nat) (s : State) : Host.Outcome State Fault Refusal :=
  sendFrame (codecEncode opRDID none (fill n)) id s

/-- SendRDSR (R91). -/
def execRdsr (s : State) : Host.Outcome State Fault Refusal :=
  sendFrame (codecEncode opRDSR none (fill 1)) id s

/-- SendRFSR (R92). -/
def execRfsr (s : State) : Host.Outcome State Fault Refusal :=
  sendFrame (codecEncode opRFSR none (fill 1)) id s

/-- SendWREN (R93): the response is ignored, WSTATE unchanged. -/
def execWren (s : State) : Host.Outcome State Fault Refusal :=
  sendFrame (codecEncode opWREN none []) id s

/-- SendPP(a, d) (R94): WSTATE <- UNKNOWN once the Xfer has returned (spec/42_write_completion.md R113). -/
def execPp (a : Nat) (d : Bytes) (s : State) : Host.Outcome State Fault Refusal :=
  sendFrame (codecEncode opPP (some a) d) (fun t => t.setWState .unknown) s

/-- SendSE(a) (R95), R113. -/
def execSe (a : Nat) (s : State) : Host.Outcome State Fault Refusal :=
  sendFrame (codecEncode opSE (some a) []) (fun t => t.setWState .unknown) s

/-- SendSSE(a) (R96), R113. -/
def execSse (a : Nat) (s : State) : Host.Outcome State Fault Refusal :=
  sendFrame (codecEncode opSSE (some a) []) (fun t => t.setWState .unknown) s

/-- SendBE (R97), R113. -/
def execBe (s : State) : Host.Outcome State Fault Refusal :=
  sendFrame (codecEncode opBE none []) (fun t => t.setWState .unknown) s

/-- SendREAD(a, n) (R98). -/
def execReadData (a n : Nat) (s : State) : Host.Outcome State Fault Refusal :=
  sendFrame (codecEncode opREAD (some a) (fill n)) id s

end Sys2Proof.Machine
end

