-- ==== Sys2Proof/Machine/Identify.lean ====
section
/-! DEFINITION. The Geometry Resolver and IDENTIFY (spec/41_geometry.md R99 to R106). -/

namespace Sys2Proof.Machine

/-- `resolve(mfr, type)` (R102): the entry's descriptor with unknown = 0, or the unknown-family descriptor (R103) with unknown = 1. -/
def resolve (table : List GeomEntry) (mfr type : Byte) : Descriptor × Bool :=
  match table.find? (fun e => decide (e.mfr = mfr) && decide (e.type = type)) with
  | some e => (e.desc, false)
  | none => (unknownDescriptor, true)

/-- The split of the identification bytes (R99): manufacturer, type, capacity code, then UID_LEN bytes of unique id. -/
def parseIdent (uidLen : Nat) (id : Bytes) : IdRegs where
  mfr := id.getD 0 0#8
  type := id.getD 1 0#8
  cap := id.getD 2 0#8
  uid := slice id 3 (3 + uidLen)

/-- The descriptor registers of a resolved chip (R105). GEOM_SUBSECTOR_LEN is not written when the subsector is ABSENT. -/
def geomOf (d : Descriptor) (old : GeomRegs) : GeomRegs where
  valid := true
  family := d.family
  sectorLen := BitVec.ofNat 32 d.sectorLen
  subValid := d.subsectorLen.isSome
  subLen :=
    match d.subsectorLen with
    | none => old.subLen
    | some n => BitVec.ofNat 32 n
  busy := d.busy

/-- IDENTIFY's response fields (spec/30_encoding.md R82). -/
def identifyFields (s : State) : Fields :=
  .identify s.ident s.geom.family s.geom.sectorLen (if s.geom.subValid then some s.geom.subLen else none) s.geom.busy s.warn

/-- IDENTIFY's lines after SendRDID, on the answer in `resp` (R105). -/
def finishIdentify (s : State) : State :=
  let ident := parseIdent s.cfg.uidLen (codecDecode s.work.resp 1)
  let d := resolve s.cfg.geomTable ident.mfr ident.type
  let t := s.setIdent ident (geomOf d.1 s.geom) d.2
  respond (identifyFields t) t

/-- IDENTIFY (R105) up to its frame: InvalidState when already resolved (spec/60_exceptions.md R140), else on to SendRDID, with no poll
first (spec/70_reset_and_hazards.md R162). -/
def execIdentify (s : State) : Host.Outcome State Fault Refusal :=
  if s.geom.valid then raise .invalidState s else .next (s.goto .sendRdid .single)

end Sys2Proof.Machine
end

