-- ==== Sys2Proof/Machine/Completion.lean ====
section
/-! DEFINITION. The Write-Completion State Machine and its two requests, POLL and WAIT_IDLE (spec/42_write_completion.md R107 to R116). -/

namespace Sys2Proof.Machine

/-- PollOnce's lines after its frame, on the answer in `resp` (R109): LAST_POLL and WSTATE. -/
def afterPoll (s : State) : State :=
  let b := (codecDecode s.work.resp 1).headD 0#8
  s.setPoll b (checkBusy s.geom.busy b)

/-- The status frame of the family (R109): exactly one register is polled per family. -/
def pollInstr (g : GeomRegs) : Instr :=
  match g.busy with
  | .status => .rdsr
  | .flag => .rfsr

/-- POLL's lines after its frame (R111). -/
def finishPoll (s : State) : State :=
  let t := afterPoll s
  respond (.poll t.wstate t.poll.value) t

/-- POLL (R111) up to its frame. -/
def execPoll (s : State) : Host.Outcome State Fault Refusal :=
  if s.geom.valid then .next (s.goto .pollOnce .single) else raise .notResolved s

/-- WAIT_IDLE (R112) up to its first poll. -/
def execWaitIdle (s : State) : Host.Outcome State Fault Refusal :=
  if s.geom.valid then .next (s.goto .waitIdle .single) else raise .notResolved s

end Sys2Proof.Machine
end

