-- ==== Sys2Proof/Machine/EraseProgram.lean ====
section
/-! DEFINITION. The erase and program requests (spec/43_erase_program.md R117 to R128), up to their first frame; Machine/Sequencer.lean
carries the write steps on. -/

namespace Sys2Proof.Machine

/-- ERASE_SECTOR (R118). -/
def execEraseSector (addr : BitVec 32) (s : State) : Host.Outcome State Fault Refusal :=
  if s.geom.valid = false then raise .notResolved s
  else if eraseSectorOk addr s.geom then .next (startWriteStep .single 0 1 addr.toNat s)
  else raise .invalidArgument s

/-- ERASE_SUBSECTOR (R119). -/
def execEraseSubsector (addr : BitVec 32) (s : State) : Host.Outcome State Fault Refusal :=
  if s.geom.valid = false then raise .notResolved s
  else if eraseSubsectorOk addr s.geom then .next (startWriteStep .single 0 1 addr.toNat s)
  else raise .invalidArgument s

/-- ERASE_BULK (R120). -/
def execEraseBulk (s : State) : Host.Outcome State Fault Refusal :=
  if s.geom.valid = false then raise .notResolved s else .next (startWriteStep .single 0 1 0 s)

/-- PAGE_PROGRAM (R121). -/
def execPageProgram (addr : BitVec 32) (data : Bytes) (s : State) : Host.Outcome State Fault Refusal :=
  if s.geom.valid = false then raise .notResolved s
  else if pageProgramOk addr data then .next (startWriteStep .single 0 1 addr.toNat s)
  else raise .invalidArgument s

/-- PROGRAM (R122): the erase phase, then the program phase; an empty image responds at once. -/
def execProgram (data : Bytes) (s : State) : Host.Outcome State Fault Refusal :=
  if s.geom.valid = false then raise .notResolved s
  else if imageOk data then .next (startErasePhase data.length s)
  else raise .invalidArgument s

/-- The length of the image the request programs (R122); 0 for a request that programs none. -/
def imageLen : Instr → Nat
  | .program d => d.length
  | .rdid _ | .rdsr | .rfsr | .wren | .pp _ _ | .se _ | .sse _ | .be | .readData _ _ | .identify | .poll | .waitIdle
  | .eraseSector _ | .eraseSubsector _ | .eraseBulk | .pageProgram _ _ | .read _ _ | .verify _ => 0

/-- The lines of request i after a destructive frame: the next write step of the loop, the next loop, or the response (R117 to R125,
R128). -/
def afterDestructive (i : Instr) (s : State) : State :=
  match s.pos.phase with
  | .single => respond .none s
  | .erase =>
    if s.work.i + 1 < s.work.n then
      startWriteStep .erase (s.work.i + 1) s.work.n (eraseAddr s.geom (s.work.i + 1)) s
    else startProgramPhase (imageLen i) s
  | .program =>
    if s.work.i + 1 < s.work.n then
      startWriteStep .program (s.work.i + 1) s.work.n (pageAddr (s.work.i + 1)) s
    else respond .none s

end Sys2Proof.Machine
end

