-- ==== Sys2Proof/Machine/ReadVerify.lean ====
section
/-! DEFINITION. READ and VERIFY (spec/44_read_verify.md R129 to R134). -/

namespace Sys2Proof.Machine

/-- READ (R130) up to its first frame; with LEN = 0 it responds at once with no data. -/
def execRead (addr len : BitVec 32) (s : State) : Host.Outcome State Fault Refusal :=
  if s.geom.valid = false then raise .notResolved s
  else if readOk addr len then
    if len.toNat = 0 then .next (respond (.read []) (s.setRbuf [])) else .next (startRead addr.toNat len.toNat s)
  else raise .invalidArgument s

/-- The verify result registers after a comparison of RBUF with the reference (R132, R134). A match leaves VERIFY_OFFSET and
the windows unwritten. -/
def verifyRegs (s : State) (ref : Bytes) : VerifyRegs :=
  match compareBytes s.rbuf ref with
  | none => { s.verify with matched := true, offsetValid := false, valid := true }
  | some off =>
    { matched := false
      offsetValid := true
      offset := BitVec.ofNat 32 off
      winRead := verifyWindow s.cfg ref.length s.rbuf off
      winRef := verifyWindow s.cfg ref.length ref off
      valid := true }

/-- VERIFY's response fields (spec/30_encoding.md R82). -/
def verifyFields (v : VerifyRegs) : Fields :=
  .verify (if v.matched then none else some { offset := v.offset, winRead := v.winRead, winRef := v.winRef })

/-- VERIFY's lines after ChunkedRead (R132). A mismatch is no error (spec/60_exceptions.md R145). -/
def finishVerify (ref : Bytes) (s : State) : State :=
  let t := s.setVerify (verifyRegs s ref)
  respond (verifyFields t.verify) t

/-- VERIFY (R132) up to its first frame: VERIFY_VALID <- 0 comes before the checks. -/
def execVerify (ref : Bytes) (s : State) : Host.Outcome State Fault Refusal :=
  let t := s.setVerify { s.verify with valid := false }
  if t.geom.valid = false then raise .notResolved t
  else if imageOk ref then
    if ref.length = 0 then .next (finishVerify ref (t.setRbuf [])) else .next (startRead 0 ref.length t)
  else raise .invalidArgument t

/-- The number of bytes the latched request reads: LEN of READ, the reference's length of VERIFY. -/
def readLen : Instr → Nat
  | .read _ l => l.toNat
  | .verify ref => ref.length
  | .rdid _ | .rdsr | .rfsr | .wren | .pp _ _ | .se _ | .sse _ | .be | .readData _ _ | .identify | .poll | .waitIdle
  | .eraseSector _ | .eraseSubsector _ | .eraseBulk | .pageProgram _ _ | .program _ => 0

/-- The frame of chunk k of a read of `l` bytes at `a` (R129). -/
def chunkInstr (c : Config) (a l k : Nat) : Instr := .readData (a + chunkOff c k) (chunkLen c l k)

/-- The end of ChunkedRead: the request's remaining lines (R130, R132). -/
def finishRead (i : Instr) (s : State) : State :=
  match i with
  | .read _ _ => respond (.read s.rbuf) s
  | .verify ref => finishVerify ref s
  | .rdid _ | .rdsr | .rfsr | .wren | .pp _ _ | .se _ | .sse _ | .be | .readData _ _ | .identify | .poll | .waitIdle
  | .eraseSector _ | .eraseSubsector _ | .eraseBulk | .pageProgram _ _ | .program _ => s

/-- The lines after a read-data frame (R129): append the chunk, go on or finish. -/
def afterChunk (i : Instr) (s : State) : State :=
  let t := s.setRbuf (s.rbuf ++ codecDecode s.work.resp 4)
  if t.work.i + 1 < t.work.n then t.setLoop (t.work.i + 1) t.work.n t.work.a else finishRead i t

end Sys2Proof.Machine
end

