-- ==== Sys2Proof/Machine/Dispatch.lean ====
section
/-! DEFINITION. The dispatch: one arm per instruction, each a direct call of its meaning. -/

namespace Sys2Proof.Machine

/-- The meaning of an instruction. A wire command sends its frame; a host request runs from its first line to its first frame, or
to its response when it sends none (the sequencer then goes on frame by frame, Machine/Sequencer.lean). -/
def exec (i : Instr) (s : State) : Host.Outcome State Fault Refusal :=
  match i with
  -- wire commands (spec/40_frame_codec.md)
  | .rdid n => Sys2Proof.Machine.execRdid n s
  | .rdsr => Sys2Proof.Machine.execRdsr s
  | .rfsr => Sys2Proof.Machine.execRfsr s
  | .wren => Sys2Proof.Machine.execWren s
  | .pp a d => Sys2Proof.Machine.execPp a d s
  | .se a => Sys2Proof.Machine.execSe a s
  | .sse a => Sys2Proof.Machine.execSse a s
  | .be => Sys2Proof.Machine.execBe s
  | .readData a n => Sys2Proof.Machine.execReadData a n s
  -- host requests (spec/30_encoding.md R79)
  | .identify => Sys2Proof.Machine.execIdentify s
  | .poll => Sys2Proof.Machine.execPoll s
  | .waitIdle => Sys2Proof.Machine.execWaitIdle s
  | .eraseSector addr => Sys2Proof.Machine.execEraseSector addr s
  | .eraseSubsector addr => Sys2Proof.Machine.execEraseSubsector addr s
  | .eraseBulk => Sys2Proof.Machine.execEraseBulk s
  | .pageProgram addr data => Sys2Proof.Machine.execPageProgram addr data s
  | .read addr len => Sys2Proof.Machine.execRead addr len s
  | .program data => Sys2Proof.Machine.execProgram data s
  | .verify ref => Sys2Proof.Machine.execVerify ref s

end Sys2Proof.Machine
end

