-- ==== Sys2Proof/Machine/Sequencer.lean ====
section
/-! DEFINITION. The sequencer between two steps: which instruction stands at its position (spec/10_state.md R22), what the request's
pseudocode does with a frame's answer, and how an instruction is placed where the next step runs it. -/

namespace Sys2Proof.Machine

/-- What follows WaitIdle in a request's pseudocode. -/
inductive WaitRole where
  /-- WAIT_IDLE: the response (R112). -/
  | respond
  /-- A write step: SendWREN (R117). -/
  | write
  /-- READ and VERIFY: ChunkedRead (R130, R132). -/
  | read
  deriving DecidableEq, Repr

/-- Which requests call WaitIdle, and what for (spec/42_write_completion.md R112, R114, spec/43_erase_program.md R117). -/
def waitRole : Instr → Option WaitRole
  | .waitIdle => some .respond
  | .eraseSector _ | .eraseSubsector _ | .eraseBulk | .pageProgram _ _ | .program _ => some .write
  | .read _ _ | .verify _ => some .read
  | .rdid _ | .rdsr | .rfsr | .wren | .pp _ _ | .se _ | .sse _ | .be | .readData _ _ | .identify | .poll => none

/-- The destructive frame D of the write step at hand (R117 to R125). -/
def destructiveInstr (i : Instr) (s : State) : Option Instr :=
  match i with
  | .eraseSector _ => some (.se s.work.a)
  | .eraseSubsector _ => some (.sse s.work.a)
  | .eraseBulk => some .be
  | .pageProgram _ d => some (.pp s.work.a d)
  | .program d =>
    match s.pos.phase with
    | .erase =>
      match s.cfg.eraseStrategy with
      | .sector => some (.se s.work.a)
      | .bulk => some .be
    | .program => some (.pp s.work.a (pageSlice d s.work.a))
    | .single => none
  | .rdid _ | .rdsr | .rfsr | .wren | .pp _ _ | .se _ | .sse _ | .be | .readData _ _ | .identify | .poll | .waitIdle
  | .read _ _ | .verify _ => none

/-- The wire command at a frame line of request i; `none` where the request has no such line. -/
def lineInstr (i : Instr) (s : State) : Option Instr :=
  match s.pos.line with
  | .entry => none
  | .sendRdid => if i = .identify then some (.rdid (3 + s.cfg.uidLen)) else none
  | .pollOnce => if i = .poll then some (pollInstr s.geom) else none
  | .waitIdle => if (waitRole i).isSome then some (pollInstr s.geom) else none
  | .sendWren => if waitRole i = some .write then some .wren else none
  | .destructive => destructiveInstr i s
  | .sendRead =>
    if waitRole i = some .read then some (chunkInstr s.cfg s.work.a (readLen i) s.work.i) else none

/-- WaitIdle has returned: on to what follows it. -/
def afterIdle (i : Instr) (s : State) : State :=
  match waitRole i with
  | some .respond => respond (.waitIdle s.poll.value) s
  | some .write => s.goto .sendWren s.pos.phase
  | some .read => beginChunks s
  | none => s

/-- One pass of WaitIdle's repeat loop after its poll (R110): idle, go on; else delay and poll again. -/
def afterWaitPoll (i : Instr) (s : State) : State :=
  let t := afterPoll s
  if t.wstate = .idle then afterIdle i t else delay s.cfg.pollDelay t

/-- The lines of request i from the frame just answered to its next frame or its response. -/
def advance (i : Instr) (s : State) : State :=
  match s.pos.line with
  | .entry => s
  | .sendRdid => finishIdentify s
  | .pollOnce => finishPoll s
  | .waitIdle => afterWaitPoll i s
  | .sendWren => s.goto .destructive s.pos.phase
  | .destructive => afterDestructive i s
  | .sendRead => afterChunk i s

/-- After a wire command of request i: nothing more while the transport has not answered (CS still asserted) or when the error
entry has ended the request; else the request goes on. -/
def afterFrame (i : Instr) (s : State) : State :=
  if s.seqState = .ready ∨ s.cs = true then s else advance i s

/-- READY: the accept step when the host offers a request (R20), else the block waits. -/
def acceptStep (s : State) : State :=
  match s.hostQ with
  | [] => s
  | r :: rest => s.accept r rest

/-- Put an instruction where the next step runs it: the sequencer in EXEC, a host request latched at its first line, a wire
command's request latched at the line that sends it (R22). -/
def placeAt (r : Request) (l : Line) (n a : Nat) (s : State) : State :=
  { s with seqState := .exec, cs := false, req := r, pos := { line := l, phase := .single }, work := { s.work with i := 0, n := n, a := a } }

/-- `placeAt` for every instruction. A status frame needs the busy method that polls it. Log entry 10. -/
def placeInstr (i : Instr) (s : State) : State :=
  match i with
  | .rdid _ => placeAt ⟨0x1#4, 0, 0, []⟩ .sendRdid 0 0 s
  | .rdsr => placeAt ⟨0x2#4, 0, 0, []⟩ .pollOnce 0 0 (s.setIdent s.ident { s.geom with busy := .status } s.warn)
  | .rfsr => placeAt ⟨0x2#4, 0, 0, []⟩ .pollOnce 0 0 (s.setIdent s.ident { s.geom with busy := .flag } s.warn)
  | .wren => placeAt ⟨0x6#4, 0, 0, []⟩ .sendWren 1 0 s
  | .pp a d => placeAt ⟨0x7#4, BitVec.ofNat 32 a, 0, d⟩ .destructive 1 a s
  | .se a => placeAt ⟨0x4#4, BitVec.ofNat 32 a, 0, []⟩ .destructive 1 a s
  | .sse a => placeAt ⟨0x5#4, BitVec.ofNat 32 a, 0, []⟩ .destructive 1 a s
  | .be => placeAt ⟨0x6#4, 0, 0, []⟩ .destructive 1 0 s
  | .readData a n => placeAt ⟨0x8#4, BitVec.ofNat 32 a, BitVec.ofNat 32 n, []⟩ .sendRead 1 a s
  | .identify | .poll | .waitIdle | .eraseSector _ | .eraseSubsector _ | .eraseBulk | .pageProgram _ _ | .read _ _
  | .program _ | .verify _ => placeAt ((encodeRequest i).getD noRequest) .entry 0 0 s

end Sys2Proof.Machine
end

