-- ==== Sys2Proof/Machine/Step.lean ====
section
/-! DEFINITION. One step of the block: the accept step (spec/10_state.md R20), a request's first lines, or one frame with the lines after
it (spec/00_scope.md R13: an Xfer is one indivisible step). -/

namespace Sys2Proof.Machine

/-- The position's wire command, run; then the request's lines up to its next frame. -/
def frameStep (i : Instr) (s : State) : Host.Outcome State Fault Refusal :=
  match lineInstr i s with
  | none => .fault .noSuchLine
  | some w =>
    match exec w s with
    | .next t => .next (afterFrame i t)
    | .fault f => .fault f
    | .refused r => .refused r

/-- EXEC: a reserved KIND ends in InvalidRequest (spec/60_exceptions.md R139); at its first line a request runs its meaning; at a frame
line the frame is sent. -/
def execStep (s : State) : Host.Outcome State Fault Refusal :=
  match decodeRequest s.req with
  | .error _ => raise .invalidRequest s
  | .ok i => if s.pos.line = .entry then exec i s else frameStep i s

/-- One step. A configuration that is not well-formed is refused (spec/41_geometry.md R100). -/
def step (s : State) : Host.Outcome State Fault Refusal :=
  if s.cfg.wf then
    match s.seqState with
    | .ready => .next (acceptStep s)
    | .exec => execStep s
  else .refused .illFormedConfig

/-- `s` with the instruction of a table word placed where the next step runs it. A word that names no instruction is latched as a
request of that KIND, which the next step ends with InvalidRequest. Log entry 10. -/
def State.withFetchWord (s : State) (nbits w : Nat) : State :=
  match decodeTableWord nbits w with
  | some i => placeInstr i s
  | none => placeAt ⟨BitVec.ofNat 4 w, 0, 0, []⟩ .entry 0 0 s

end Sys2Proof.Machine
end

