-- ==== Sys2Proof/Machine/HostView.lean ====
section
/-! DEFINITION. What the host and the transport do to the block from outside: offering a request, answering a frame, reset
(spec/70_reset_and_hazards.md R159), the status view (spec/10_state.md R41), the derived capacity (R30) and DUMP (spec/30_encoding.md R84). -/

namespace Sys2Proof.Machine

/-! ## Moves of the other agents (spec/00_scope.md R6) -/

/-- The host offers one more request; it waits its turn while the block is in EXEC (R20). A record whose DATA is longer than R79
allows is no request the channel can carry: offering it is no event (log entry 23). -/
def State.offer (s : State) (r : Request) : State := { s with hostQ := if r.fits then s.hostQ ++ [r] else s.hostQ }

/-- The transport gives one more answer (R7). -/
def State.supply (s : State) (a : Answer) : State := { s with answers := s.answers ++ [a] }

/-- The reset event (R159): every register takes its reset value, TRACE is emptied, a request in flight is dropped with no response.
The configuration stays, and so do the channels' other ends: what the host still holds and has received, and the transport's
answers (log entry 12). While an Xfer is in progress it is refused: an Xfer is indivisible (R168, U1). -/
def State.resetEvent (s : State) : Host.Outcome State Fault Refusal :=
  if s.cs then .refused .resetDuringXfer
  else .next { State.resetWith s.cfg with hostQ := s.hostQ, answers := s.answers, responses := s.responses }

/-! ## The status view (R41) -/

/-- A value the view gives. -/
inductive ViewValue where
  | num (n : Nat)
  | bytes (b : Bytes)
  deriving DecidableEq, Repr

/-- The value when `c` says that the register has one. -/
def given (c : Bool) (v : ViewValue) : Option ViewValue := if c then some v else none

/-- What a register holds; `none` is R44's "no value". -/
def regValue (s : State) : ViewReg → Option ViewValue
  | .seqState => some (.num s.seqState.code.toNat)
  | .idMfr => given s.geom.valid (.num s.ident.mfr.toNat)
  | .idType => given s.geom.valid (.num s.ident.type.toNat)
  | .idCap => given s.geom.valid (.num s.ident.cap.toNat)
  | .idUid => given s.geom.valid (.bytes s.ident.uid)
  | .geomValid => some (.num s.geom.valid.toNat)
  | .geomFamily => given s.geom.valid (.num s.geom.family.code.toNat)
  | .pageLen => some (.num pageLen)
  | .geomSectorLen => given s.geom.valid (.num s.geom.sectorLen.toNat)
  | .geomSubsectorValid => given s.geom.valid (.num s.geom.subValid.toNat)
  | .geomSubsectorLen => given (s.geom.valid && s.geom.subValid) (.num s.geom.subLen.toNat)
  | .geomBusyMethod => given s.geom.valid (.num s.geom.busy.code.toNat)
  | .warnUnknownChip => some (.num s.warn.toNat)
  | .wstate => some (.num s.wstate.code.toNat)
  | .lastPoll => given s.poll.valid (.num s.poll.value.toNat)
  | .lastStatus => some (.num s.lastStatus.code.toNat)
  | .verifyValid => some (.num s.verify.valid.toNat)
  | .verifyMatched => given s.verify.valid (.num s.verify.matched.toNat)
  | .verifyOffsetValid => given s.verify.valid (.num s.verify.offsetValid.toNat)
  | .verifyOffset => given (s.verify.valid && s.verify.offsetValid) (.num s.verify.offset.toNat)
  | .verifyWinRead => given (s.verify.valid && !s.verify.matched) (.bytes s.verify.winRead)
  | .verifyWinRef => given (s.verify.valid && !s.verify.matched) (.bytes s.verify.winRef)
  | .cs => some (.num s.cs.toNat)

/-- The widths of R41's table, in bits, of the numeric registers; for a byte sequence, the most bytes it holds. PAGE_LEN has no
storage; 9 bits hold its value. -/
def viewWidth (c : Config) : ViewReg → Nat
  | .seqState | .geomValid | .geomSubsectorValid | .geomBusyMethod | .warnUnknownChip | .verifyValid | .verifyMatched
  | .verifyOffsetValid | .cs => 1
  | .geomFamily | .wstate => 2
  | .lastStatus => 3
  | .idMfr | .idType | .idCap | .lastPoll => 8
  | .pageLen => 9
  | .geomSectorLen | .geomSubsectorLen | .verifyOffset => 32
  | .idUid => c.uidLen
  | .verifyWinRead | .verifyWinRef => c.verifyWindow

/-- A free byte sequence of length n (log entry 7). -/
def freeBytes (draw : Nat) (r : ViewReg) (n : Nat) : ViewValue := .bytes ((List.range n).map (Config.freeViewByte draw r))

/-- Any value of the register's width: what a read in EXEC gives (R41, U7; log entry 7). -/
def freeView (c : Config) (draw : Nat) (r : ViewReg) : ViewValue :=
  match r with
  | .idUid => freeBytes draw r c.uidLen
  | .verifyWinRead | .verifyWinRef => freeBytes draw r (Config.freeViewNum draw r % (c.verifyWindow + 1))
  | .seqState | .idMfr | .idType | .idCap | .geomValid | .geomFamily | .pageLen | .geomSectorLen | .geomSubsectorValid
  | .geomSubsectorLen | .geomBusyMethod | .warnUnknownChip | .wstate | .lastPoll | .lastStatus | .verifyValid | .verifyMatched
  | .verifyOffsetValid | .verifyOffset | .cs => .num (Config.freeViewNum draw r % 2 ^ viewWidth c r)

/-- A host read of the status view, the `draw`-th (R41): without side effects. In READY it gives the register, and faults on one
that has no value; in EXEC it gives any value. -/
def statusView (draw : Nat) (r : ViewReg) (s : State) : Except Fault ViewValue :=
  match s.seqState with
  | .exec => .ok (freeView s.cfg draw r)
  | .ready =>
    match regValue s r with
    | some v => .ok v
    | none => .error (.noValue r)

/-! ## Capacity and DUMP -/

/-- CAPACITY_BITS: no value while GEOM_VALID = 0 (R30). -/
def State.capacityBits (s : State) : Option Nat := if s.geom.valid then some (capBits s.ident.cap) else none

/-- CAPACITY_BYTES: no value while GEOM_VALID = 0 (R30). -/
def State.capacityBytes (s : State) : Option Nat := if s.geom.valid then some (capBytes s.ident.cap) else none

/-- The pseudo-instruction DUMP (R84): READ 0, min(CAPACITY_BYTES, 2^24), legal only while GEOM_VALID = 1. -/
def State.dump (s : State) : Option Instr :=
  s.capacityBytes.map (fun n => .read 0#32 (BitVec.ofNat 32 (min n addrLimit)))

end Sys2Proof.Machine
end

