-- ==== Sys2Proof/Machine/Chip.lean ====
section
/-! DEFINITION. The informative reference model of the flash chip (spec/20_memory.md R64 to R71): the environment, not the block. No
definition of the block uses this file; the block's claims quantify over every answer (R7). It gives a chip that answers
frames, and the closed loop of the block with such a chip. -/

namespace Sys2Proof.Machine

/-! ## The array -/

/-- The array FLASH (R64): cells at strictly rising addresses, and what an unlisted address reads as: no value (the initial
contents), or 0xFF once the whole chip has been erased. No cell equals what its address would read as unlisted. -/
structure Flash where
  blank : Bool
  cells : List Host.Cell
  deriving DecidableEq, Repr

/-- What an unlisted address reads as; `none` is "no value" (R64). -/
def Flash.unlisted (m : Flash) : Option Byte := if m.blank then some 0xFF#8 else none

/-- The byte of the first cell at address `a`. -/
def cellAt (a : Nat) : List Host.Cell → Option Byte
  | [] => none
  | (k, v) :: rest => if k = a then some v else cellAt a rest

/-- FLASH[a]. -/
def Flash.read (m : Flash) (a : Nat) : Option Byte := (cellAt a m.cells).or m.unlisted

/-- Put a cell in its place. -/
def putCell (a : Nat) (v : Byte) : List Host.Cell → List Host.Cell
  | [] => [(a, v)]
  | (k, w) :: rest =>
    if a < k then (a, v) :: (k, w) :: rest
    else if a = k then (a, v) :: rest
    else (k, w) :: putCell a v rest

/-- Take the cell at an address away. -/
def dropCell (a : Nat) : List Host.Cell → List Host.Cell
  | [] => []
  | (k, w) :: rest => if k = a then rest else (k, w) :: dropCell a rest

/-- FLASH[a] <- v, in canonical form: writing what the address reads as unlisted takes its cell away. -/
def Flash.write (m : Flash) (a : Nat) (v : Byte) : Flash :=
  { m with cells := if m.unlisted = some v then dropCell a m.cells else putCell a v m.cells }

/-- Strictly rising addresses. -/
def risingFrom (lo : Nat) : List Host.Cell → Bool
  | [] => true
  | (k, _) :: rest => decide (lo ≤ k) && risingFrom (k + 1) rest

/-- The canonical form. -/
def Flash.wf (m : Flash) : Bool :=
  risingFrom 0 m.cells && m.cells.all (fun c => decide (m.unlisted ≠ some c.2))

/-- Write `n` bytes from address `a`, byte k being `g k`, at addresses below `cap` only. -/
def Flash.writeRange (m : Flash) (cap a : Nat) (g : Nat → Byte) : Nat → Flash
  | 0 => m
  | n + 1 =>
    let m' := Flash.writeRange m cap a g n
    if a + n < cap then m'.write (a + n) (g n) else m'

/-- Erase of `n` bytes from `a`: all bits to 1 (R68). -/
def Flash.erase (m : Flash) (cap a n : Nat) : Flash := m.writeRange cap a (fun _ => 0xFF#8) n

/-- Erase of the whole chip (R68). -/
def Flash.eraseAll (_m : Flash) : Flash := { blank := true, cells := [] }

/-! ## The chip -/

/-- The chip (R64, R65): its fixed identity and geometry, the array, WEL, BUSYLEFT, and whether a write cycle has not yet been
reported complete (R66). -/
structure Chip where
  mfr : Byte
  type : Byte
  cap : Byte
  uid : Bytes
  sectorLen : Nat
  /-- `none`: the chip has no subsector erase. -/
  subsectorLen : Option Nat
  flash : Flash
  wel : Bool
  busyLeft : Nat
  cycle : Bool
  deriving DecidableEq, Repr

/-- The draws one frame may use. DESIGN CHOICE (log entry 14): the busy polls are a natural number, as R64's count and R68's "draw ≥ 0"
have it, so this chip becomes idle after finitely many polls, while U4 also allows "never idle" (the block's hang is stated over
the answers, not over this chip); a byte past the end of a list is 0x00. -/
structure Draws where
  /-- The busy polls a write cycle begun by the frame will last (R68, R69). -/
  busy : Nat
  /-- The open bytes of the answer (R66, R70, R71, U13). -/
  bytes : Bytes
  /-- The contents of array bytes that have no value (R64, U5), byte k of a read or a program taking the k-th: other draws than those
  of the answer's open bytes. -/
  fresh : Bytes := []
  /-- What a subsector erase does to the array of a chip without subsectors (U14): the cells it writes. -/
  stray : List Host.Cell := []
  deriving DecidableEq, Repr

/-- The k-th open byte of the answer. -/
def Draws.byte (d : Draws) (k : Nat) : Byte := d.bytes.getD k 0#8

/-- The k-th content of an array byte without a value. -/
def Draws.content (d : Draws) (k : Nat) : Byte := d.fresh.getD k 0#8

/-- The chip as R64 has it at first: no array byte has a value, WEL 0, BUSYLEFT 0. -/
def Chip.initial (mfr type cap : Byte) (uid : Bytes) (sectorLen : Nat) (subsectorLen : Option Nat) : Chip where
  mfr := mfr
  type := type
  cap := cap
  uid := uid
  sectorLen := sectorLen
  subsectorLen := subsectorLen
  flash := { blank := false, cells := [] }
  wel := false
  busyLeft := 0
  cycle := false

/-- The chip's size in bytes. -/
def Chip.size (c : Chip) : Nat := capBytes c.cap

/-- A write cycle begins (R68, R69). -/
def Chip.begin (c : Chip) (d : Draws) (m : Flash) : Chip := { c with flash := m, busyLeft := d.busy, cycle := true }

/-- A destructive frame acts only when the chip is not busy and WEL is set (R68, R69). -/
def Chip.destructive (c : Chip) (d : Draws) (m : Flash) : Chip :=
  if c.busyLeft = 0 ∧ c.wel = true then c.begin d m else c

/-- The chip after one status frame (R66): one busy poll fewer, or a completed cycle clears WEL. -/
def Chip.polled (c : Chip) : Chip :=
  if 0 < c.busyLeft then { c with busyLeft := c.busyLeft - 1 }
  else if c.cycle then { c with wel := false, cycle := false }
  else c

/-- The status byte (R66): bit 0 is 1 while busy, the other bits are draws. -/
def Chip.statusByte (c : Chip) (d : Draws) : Byte := if 0 < c.busyLeft then d.byte 1 ||| 0x01#8 else d.byte 1 &&& 0xFE#8

/-- The flag status byte (R66): bit 7 is 0 while busy, the other bits are draws. -/
def Chip.flagByte (c : Chip) (d : Draws) : Byte := if 0 < c.busyLeft then d.byte 1 &&& 0x7F#8 else d.byte 1 ||| 0x80#8

/-- `n` open bytes from the k-th on. -/
def Draws.take (d : Draws) (k n : Nat) : Bytes := (List.range n).map (fun j => d.byte (k + j))

/-- The k-th byte a frame finds, at address `a`: the array's, or a draw where it has none (R64, U5). -/
def Chip.byteAt (c : Chip) (d : Draws) (k a : Nat) : Byte :=
  if a < c.size then (c.flash.read a).getD (d.content k) else d.content k

/-- Page program (R69): bits only fall. A byte that never had a value is first drawn (R64). -/
def Chip.programmed (c : Chip) (dr : Draws) (a : Nat) (p : Bytes) : Flash :=
  c.flash.writeRange c.size a (fun k => c.byteAt dr k (a + k) &&& p.getD k 0#8) p.length

/-- The erase of the unit of `len` bytes that contains `a` (R68). -/
def Chip.unitErased (c : Chip) (a len : Nat) : Flash := c.flash.erase c.size (a / len * len) len

/-- The answer to an RDID frame of n read bytes (R65); in a write cycle it is a draw (spec/70_reset_and_hazards.md R162, U13). DESIGN
CHOICE (log entry 14), the spec being silent: a chip whose unique id is not UID_LEN bytes long fills the rest of the frame with
draws, or sends the first n − 3 bytes of it. -/
def Chip.identAnswer (c : Chip) (d : Draws) (n : Nat) : Bytes :=
  if 0 < c.busyLeft then d.take 0 (1 + n) else d.byte 0 :: ([c.mfr, c.type, c.cap] ++ c.uid ++ d.take 1 n).take n

/-- The array after a subsector erase on a chip that has no subsectors: any value (U14), here the drawn writes. DESIGN CHOICE (log entry
14): like any destructive frame it needs WEL on an idle chip and begins a write cycle. -/
def Chip.strayed (c : Chip) (d : Draws) : Flash :=
  d.stray.foldl (fun m x => if x.1 < c.size then m.write x.1 x.2 else m) c.flash

/-- The chip's answer to a frame and the chip after it (R65 to R71). A read records the draws of bytes that had no value, so that
reading them again gives them again. DESIGN CHOICE (log entry 14): SE and SSE erase the chip's own sector or subsector that contains
the address, as R68 reads, also where that unit's length is not the one in the block's geometry registers; U14 allows any effect on
the array there. -/
def Chip.serve (c : Chip) (d : Draws) (f : Bytes) : Bytes × Chip :=
  match decodeFrame f with
  | .ok (.rdid n) => (c.identAnswer d n, c)
  | .ok .rdsr => ([d.byte 0, c.statusByte d], c.polled)
  | .ok .rfsr => ([d.byte 0, c.flagByte d], c.polled)
  | .ok .wren => (d.take 0 1, if c.busyLeft = 0 then { c with wel := true } else c)
  | .ok (.pp a p) => (d.take 0 f.length, c.destructive d (c.programmed d a p))
  | .ok (.se a) => (d.take 0 f.length, c.destructive d (c.unitErased a c.sectorLen))
  | .ok (.sse a) =>
    (d.take 0 f.length,
      match c.subsectorLen with
      | none => c.destructive d (c.strayed d)
      | some n => c.destructive d (c.unitErased a n))
  | .ok .be => (d.take 0 f.length, c.destructive d c.flash.eraseAll)
  | .ok (.readData a n) =>
    (d.take 0 4 ++ (List.range n).map (fun k => c.byteAt d k (a + k)),
      { c with flash := c.flash.writeRange c.size a (fun k => c.byteAt d k (a + k)) n })
  | .ok _ => (d.take 0 f.length, c)
  | .error _ => (d.take 0 f.length, c)

/-! ## The closed loop -/

/-- The block with a reference chip on its bus. -/
structure System where
  block : State
  chip : Chip
  deriving DecidableEq, Repr

/-- The loop at power-up: the block right after reset, and a chip, `Chip.initial` of its identity where nothing is known of it. -/
def System.initial (cfg : Config) (chip : Chip) : System := { block := State.resetWith cfg, chip := chip }

/-- The frame the block sends in its next step; `none` where that step sends none. -/
def pendingFrame (s : State) : Option Bytes :=
  match s.seqState, decodeRequest s.req with
  | .exec, .ok i => (lineInstr i s).bind encodeFrame
  | _, _ => none

/-- One step of the closed loop: the chip answers the block's pending frame, and the block steps. -/
def System.step (d : Draws) (y : System) : Host.Outcome System Fault Refusal :=
  let served :=
    match pendingFrame y.block with
    | none => (y.block, y.chip)
    | some f =>
      let r := y.chip.serve d f
      ({ y.block with answers := [.bytes r.1] }, r.2)
  match Machine.step served.1 with
  | .next t => .next { block := t, chip := served.2 }
  | .fault f => .fault f
  | .refused r => .refused r

/-- A run of the closed loop, one set of draws for each step. -/
def System.run : List Draws → System → Host.Outcome System Fault Refusal
  | [], y => .next y
  | d :: ds, y =>
    match y.step d with
    | .next z => z.run ds
    | .fault f => .fault f
    | .refused r => .refused r

/-- A reset of the block leaves the chip as it is (spec/70_reset_and_hazards.md R160). -/
def System.resetEvent (y : System) : Host.Outcome System Fault Refusal :=
  match y.block.resetEvent with
  | .next t => .next { y with block := t }
  | .fault f => .fault f
  | .refused r => .refused r

end Sys2Proof.Machine
end

