-- ==== Sys2Proof/Safety.lean ====
section
/-! DEFINITION. What a safe state is, in the terms the claims use: the order of frames in TRACE (spec/42_write_completion.md R115,
spec/43_erase_program.md R117, spec/70_reset_and_hazards.md R163 to R165), the form of every frame sent, and the invariant every step
keeps. -/

namespace Sys2Proof.Machine

/-! ## Events of TRACE -/

/-- The event was answered with a sequence of the frame's length (spec/00_scope.md R7, R13). -/
def Event.answered (e : Event) : Bool :=
  match e.answer with
  | .bytes r => decide (r.length = e.frame.length)
  | .fail => false

/-- The poll by method `m` came back and reported idle (spec/42_write_completion.md R107, R109). -/
def pollReportsIdle (m : BusyMethod) (a : Answer) : Bool :=
  match a with
  | .bytes [_, b] => decide (checkBusy m b = .idle)
  | .bytes [] => false
  | .bytes [_] => false
  | .bytes (_ :: _ :: _ :: _) => false
  | .fail => false

/-- The event is a status frame that reported idle: RDSR with bit 0 clear, or RFSR with bit 7 set (R107). -/
def Event.reportsIdle (e : Event) : Bool :=
  (decide (e.frame = [opRDSR, filler]) && pollReportsIdle .status e.answer) ||
    (decide (e.frame = [opRFSR, filler]) && pollReportsIdle .flag e.answer)

/-- The event is a WREN frame that was answered. -/
def Event.enablesWrite (e : Event) : Bool := decide (e.frame = [opWREN]) && e.answered

/-- The event is a read-data frame that was answered. -/
def Event.readsData (e : Event) : Bool := decide (e.frame.head? = some opREAD) && e.answered

/-- What may stand directly before an event (R115, R117, R164): before WREN, the status frame that reported idle; before a
destructive frame, a WREN; before a read-data frame, the status frame that reported idle or another read-data frame. RDID and
status frames may follow anything. No other opcode is ever sent (spec/30_encoding.md R77). -/
def mayFollow (before : Option Event) (e : Event) : Bool :=
  match decodeFrame e.frame with
  | .ok .wren => before.any Event.reportsIdle
  | .ok (.pp _ _) | .ok (.se _) | .ok (.sse _) | .ok .be => before.any Event.enablesWrite
  | .ok (.readData _ _) => before.any (fun b => b.reportsIdle || b.readsData)
  | .ok (.rdid _) | .ok .rdsr | .ok .rfsr => true
  | .ok .identify | .ok .poll | .ok .waitIdle | .ok (.eraseSector _) | .ok (.eraseSubsector _) | .ok .eraseBulk
  | .ok (.pageProgram _ _) | .ok (.read _ _) | .ok (.program _) | .ok (.verify _) => false
  | .error _ => false

/-- Every event of a list may follow the one before it, the first one following `before`. -/
def orderedAfter (before : Option Event) : List Event → Bool
  | [] => true
  | e :: es => mayFollow before e && orderedAfter (some e) es

/-- TRACE is in the order the write and wait policies demand. -/
def traceOrdered (tr : List Event) : Bool := orderedAfter none tr

/-- The frame decodes to a well-formed wire command of the configuration (R77, R78); its erase address is a multiple of the unit
the geometry gives (spec/20_memory.md R51); a status frame polls the family's register (R109). -/
def frameFits (c : Config) (g : GeomRegs) (f : Bytes) : Bool :=
  match decodeFrame f with
  | .ok i =>
    i.wf c &&
      (match i with
        | .se a => decide (a % g.sectorLen.toNat = 0)
        | .sse a => g.subValid && decide (a % g.subLen.toNat = 0)
        | .rdsr => decide (g.busy = .status)
        | .rfsr => decide (g.busy = .flag)
        | .rdid _ | .wren | .pp _ _ | .be | .readData _ _ | .identify | .poll | .waitIdle | .eraseSector _ | .eraseSubsector _
        | .eraseBulk | .pageProgram _ _ | .read _ _ | .program _ | .verify _ => true)
  | .error _ => false

/-- Until the geometry is resolved only RDID frames have been sent (R141, spec/70_reset_and_hazards.md R161); after it, every frame fits. -/
def traceFits (s : State) : Bool :=
  s.trace.all (fun e =>
    if s.geom.valid then frameFits s.cfg s.geom e.frame || decide (e.frame = opRDID :: fill (3 + s.cfg.uidLen))
    else decide (e.frame = opRDID :: fill (3 + s.cfg.uidLen)))

/-! ## The invariant -/

/-- A resolved geometry is legal (spec/10_state.md R27, R28, spec/41_geometry.md R100, R103): nonzero multiples of PAGE_LEN; ID_UID has UID_LEN
bytes (R23); the warning says whether the family is UNKNOWN (R102, R103). -/
def geomLegal (s : State) : Bool :=
  decide (s.geom.sectorLen.toNat ≠ 0) && decide (s.geom.sectorLen.toNat % pageLen = 0) &&
    (!s.geom.subValid || (decide (s.geom.subLen.toNat ≠ 0) && decide (s.geom.subLen.toNat % pageLen = 0))) &&
    decide (s.ident.uid.length = s.cfg.uidLen) && decide (s.warn = decide (s.geom.family = .unknown))

/-- The verify registers: a valid result has an offset exactly when it does not match (R35); the windows are within
VERIFY_WINDOW (R36). -/
def verifyLegal (s : State) : Bool :=
  (!s.verify.valid || decide (s.verify.offsetValid = !s.verify.matched)) &&
    decide (s.verify.winRead.length ≤ s.cfg.verifyWindow) && decide (s.verify.winRef.length ≤ s.cfg.verifyWindow)

/-- A read loop over `l` bytes from `a`: 1 ≤ l, the range below 2^24, the working registers at chunk i of n (spec/44_read_verify.md R129). -/
def readLoopOk (s : State) (a l : Nat) : Bool :=
  decide (1 ≤ l) && decide (a + l ≤ addrLimit) && decide (s.work.a = a) && decide (s.work.n = chunkCount s.cfg l) &&
    decide (s.work.i < s.work.n) &&
    (if s.pos.line = .sendRead then decide (s.rbuf.length = chunkOff s.cfg s.work.i) else decide (s.work.i = 0))

/-- The working registers and the phase fit the latched request `i` at a line inside one of its loops. -/
def loopOk (i : Instr) (s : State) : Bool :=
  match i with
  | .waitIdle => true
  | .eraseSector a => eraseSectorOk a s.geom && decide (s.pos.phase = .single) && decide (s.work.a = a.toNat)
  | .eraseSubsector a => eraseSubsectorOk a s.geom && decide (s.pos.phase = .single) && decide (s.work.a = a.toNat)
  | .eraseBulk => decide (s.pos.phase = .single)
  | .pageProgram a d => pageProgramOk a d && decide (s.pos.phase = .single) && decide (s.work.a = a.toNat)
  | .program d =>
    imageOk d && decide (s.work.i < s.work.n) &&
      (match s.pos.phase with
        | .single => false
        | .erase => decide (s.work.n = eraseSteps s.cfg d.length s.geom) && decide (s.work.a = eraseAddr s.geom s.work.i)
        | .program => decide (s.work.n = pageCount d.length) && decide (s.work.a = pageAddr s.work.i))
  | .read a l => readLoopOk s a.toNat l.toNat
  | .verify d => readLoopOk s 0 d.length
  | .rdid _ | .rdsr | .rfsr | .wren | .pp _ _ | .se _ | .sse _ | .be | .readData _ _ | .identify | .poll => true

/-- The position is one the latched request's pseudocode has, with its loop registers in range, and the chip idle where the
policy says so: at SendWREN, at the destructive frame and at SendREAD, WSTATE = IDLE, and the last event of TRACE is the poll,
the WREN or the chunk that R115 and R117 put there. -/
def positionOk (s : State) : Bool :=
  match decodeRequest s.req with
  | .error _ => decide (s.pos.line = .entry) && !s.cs
  | .ok i =>
    match s.pos.line with
    | .entry => !s.cs
    | .sendRdid => decide (i = .identify) && !s.geom.valid
    | .pollOnce => decide (i = .poll) && s.geom.valid
    | .waitIdle => (waitRole i).isSome && s.geom.valid && loopOk i s
    | .sendWren =>
      decide (waitRole i = some .write) && s.geom.valid && loopOk i s && decide (s.wstate = .idle) &&
        s.trace.getLast?.any Event.reportsIdle
    | .destructive =>
      decide (waitRole i = some .write) && s.geom.valid && loopOk i s && decide (s.wstate = .idle) &&
        s.trace.getLast?.any Event.enablesWrite
    | .sendRead =>
      decide (waitRole i = some .read) && s.geom.valid && loopOk i s && decide (s.wstate = .idle)

/-- WSTATE = IDLE outside a write step rests on the last event: the poll that reported idle, or a read-data frame after it (R115). -/
def idleRests (s : State) : Bool :=
  s.trace.getLast?.any (fun e => e.reportsIdle || e.readsData || (e.enablesWrite && decide (s.seqState = .exec) && decide (s.pos.line = .destructive)))

/-- The invariant: every step keeps it, and so do the moves of the host, the transport and reset. -/
structure Inv (s : State) : Prop where
  /-- The configuration is well-formed (R8, R100). -/
  config : s.cfg.wf = true
  /-- CS = 0 in READY (spec/10_state.md R37, spec/70_reset_and_hazards.md R168). -/
  deselected : s.seqState = .ready → s.cs = false
  /-- A resolved geometry is legal. -/
  geometry : s.geom.valid = true → geomLegal s = true
  /-- Before resolution nothing is known of the chip and there is no warning (R31, R32). -/
  unresolved : s.geom.valid = false → s.wstate = .unknown ∧ s.warn = false
  /-- The verify registers are legal. -/
  verified : verifyLegal s = true
  /-- REQ.DATA has a length the latch can hold (R19). -/
  latched : s.req.fits = true
  /-- So does every request the host still holds (R79). -/
  held : s.hostQ.all Request.fits = true
  /-- RBUF holds at most 2^24 bytes (R38). -/
  buffer : s.rbuf.length ≤ addrLimit
  /-- In EXEC the position is one of the request's. -/
  position : s.seqState = .exec → positionOk s = true
  /-- WSTATE = IDLE rests on the last event. -/
  idle : s.wstate = .idle → idleRests s = true
  /-- TRACE is in order. -/
  ordered : traceOrdered s.trace = true
  /-- Every frame of TRACE is one the block may send. -/
  frames : traceFits s = true

/-! ## Runs of the three agents (spec/00_scope.md R6) -/

/-- One move: the block's step, a request offered by the host, an answer given by the transport, or a reset. -/
inductive Move : State → State → Prop where
  | block {s t : State} (h : step s = .next t) : Move s t
  | host (s : State) (r : Request) : Move s (s.offer r)
  | transport (s : State) (a : Answer) : Move s (s.supply a)
  | reset {s t : State} (h : s.resetEvent = .next t) : Move s t

/-- The states runs from reset under a configuration can reach. -/
inductive Reachable (c : Config) : State → Prop where
  | reset : Reachable c (State.resetWith c)
  | move {s t : State} (h : Reachable c s) (m : Move s t) : Reachable c t

/-! ## Requests -/

/-- The sequencer is executing request i under a configuration it runs with. -/
structure Latched (i : Instr) (s : State) : Prop where
  config : s.cfg.wf = true
  executing : s.seqState = .exec
  request : decodeRequest s.req = .ok i

/-- The table of spec/60_exceptions.md R142: the conditions under which a request's arguments are invalid, in these cases and no others. -/
def argumentInvalid (g : GeomRegs) : Instr → Prop
  | .eraseSector a => 2 ^ 24 ≤ a.toNat ∨ a.toNat % g.sectorLen.toNat ≠ 0
  | .eraseSubsector a => g.subValid = false ∨ 2 ^ 24 ≤ a.toNat ∨ a.toNat % g.subLen.toNat ≠ 0
  | .pageProgram a d => d.length = 0 ∨ 256 < d.length ∨ 2 ^ 24 ≤ a.toNat ∨ 256 < a.toNat % 256 + d.length
  | .read a l => 2 ^ 24 ≤ a.toNat ∨ 2 ^ 24 < a.toNat + l.toNat
  | .program d => 2 ^ 24 < d.length
  | .verify d => 2 ^ 24 < d.length
  | .rdid _ | .rdsr | .rfsr | .wren | .pp _ _ | .se _ | .sse _ | .be | .readData _ _ | .identify | .poll | .waitIdle
  | .eraseBulk => False

/-! ## Scripts of answers for runs that complete -/

/-- The poll frame of a method (R91, R92). -/
def pollFrame : BusyMethod → Bytes
  | .status => [opRDSR, filler]
  | .flag => [opRFSR, filler]

/-- One WaitIdle: the skipped byte and the register byte of each busy poll, and of the poll that reports idle (R110). -/
structure WaitScript where
  busy : List (Byte × Byte)
  idleSkip : Byte
  idleByte : Byte
  deriving DecidableEq, Repr

/-- The script fits the method: busy, ..., busy, idle. -/
def WaitScript.fits (w : WaitScript) (m : BusyMethod) : Bool :=
  w.busy.all (fun p => decide (checkBusy m p.2 = .busy)) && decide (checkBusy m w.idleByte = .idle)

/-- The answers of a WaitIdle. -/
def WaitScript.answers (w : WaitScript) : List Answer :=
  w.busy.map (fun p => .bytes [p.1, p.2]) ++ [.bytes [w.idleSkip, w.idleByte]]

/-- The events of a WaitIdle. -/
def WaitScript.events (w : WaitScript) (m : BusyMethod) : List Event :=
  w.answers.map (fun a => { frame := pollFrame m, answer := a })

/-- One write step (R117): its WaitIdle, and the ignored answers to WREN and to the destructive frame. -/
structure WriteScript where
  wait : WaitScript
  wren : Byte
  ignored : Bytes
  deriving DecidableEq, Repr

/-- The script fits the method and the destructive frame `f`. -/
def WriteScript.fits (w : WriteScript) (m : BusyMethod) (f : Bytes) : Bool :=
  w.wait.fits m && decide (w.ignored.length = f.length)

/-- The answers of a write step. -/
def WriteScript.answers (w : WriteScript) : List Answer := w.wait.answers ++ [.bytes [w.wren], .bytes w.ignored]

/-- The events of a write step with the destructive frame `f`: the polls, [0x06], f (R117). -/
def WriteScript.events (w : WriteScript) (m : BusyMethod) (f : Bytes) : List Event :=
  w.wait.events m ++ [{ frame := [opWREN], answer := .bytes [w.wren] }, { frame := f, answer := .bytes w.ignored }]

/-- The number of block steps a write step takes: one for each of its frames. -/
def WriteScript.steps (w : WriteScript) : Nat := w.answers.length

/-- The frames PROGRAM's erase phase sends, without polls and WREN (R123, R124). -/
def eraseFrames (c : Config) (g : GeomRegs) (l : Nat) : List Bytes :=
  match c.eraseStrategy with
  | .sector => (List.range (sectorCount l g)).map (fun i => opSE :: le24 (eraseAddr g i))
  | .bulk => if sectorCount l g = 0 then [] else [[opBE]]

/-- The frames its program phase sends (R125). -/
def programFrames (d : Bytes) : List Bytes :=
  (List.range (pageCount d.length)).map (fun i => opPP :: (le24 (pageAddr i) ++ pageSlice d (pageAddr i)))

/-- All of PROGRAM's destructive frames, in order (R128). -/
def imageFrames (c : Config) (g : GeomRegs) (d : Bytes) : List Bytes := eraseFrames c g d.length ++ programFrames d

/-- The frames of a read of `l` bytes at `a` (R129). -/
def chunkFrames (c : Config) (a l : Nat) : List Bytes :=
  (List.range (chunkCount c l)).map (fun k => opREAD :: (le24 (a + chunkOff c k) ++ fill (chunkLen c l k)))

/-- Answers and frames pair by pair, as events. -/
def zipEvents (fs : List Bytes) (rs : List Bytes) : List Event :=
  List.zipWith (fun f r => { frame := f, answer := .bytes r }) fs rs

/-- The answers have the frames' lengths. -/
def lengthsFit (fs rs : List Bytes) : Bool := decide (rs.map List.length = fs.map List.length)

/-- The data of the answers to read-data frames, in order (R129). -/
def chunkData (rs : List Bytes) : Bytes := rs.flatMap (fun r => codecDecode r 4)

/-- How a request of write steps ends (R118 to R122): OK with no fields, WSTATE = UNKNOWN, LAST_POLL the byte that reported idle
last, TRACE longer by `evs`; of the other registers only the position and the working registers may differ. -/
def WritesDone (s t : State) (b : Byte) (evs : List Event) (rest : List Answer) : Prop :=
  t =
    { s with
      seqState := .ready
      pos := t.pos
      work := t.work
      wstate := .unknown
      poll := { value := b, valid := true }
      lastStatus := .ok
      cs := false
      trace := s.trace ++ evs
      answers := rest
      responses := s.responses ++ [{ status := .ok, fields := .none }] }

/-- The polls of EnsureIdle (R114): none when WSTATE = IDLE, else one WaitIdle. -/
def EnsureFits (s : State) (w : Option WaitScript) : Prop :=
  match w with
  | none => s.wstate = .idle
  | some w => s.wstate ≠ .idle ∧ w.fits s.geom.busy = true

/-- Their answers. -/
def ensureAnswers (w : Option WaitScript) : List Answer := (w.map WaitScript.answers).getD []

/-- Their events. -/
def ensureEvents (m : BusyMethod) (w : Option WaitScript) : List Event := (w.map (fun v => v.events m)).getD []

/-- LAST_POLL after them. -/
def ensurePoll (s : State) (w : Option WaitScript) : LastPoll :=
  match w with
  | none => s.poll
  | some v => { value := v.idleByte, valid := true }

end Sys2Proof.Machine
end

