-- ==== Sys2Proof/Certificates/Slice0/Obligations.lean ====
section
/-! DEFINITION. The statements for the provers. Each docstring names the rules of spec/ it formalises, or says that a clause is the
model's own choice and which log entry declares it. -/

open Sys2Proof Sys2Proof.Machine

/-! ## Codec, encodings, decoding -/

/-- R75, R88: le24 puts the address least significant byte first, decodeAddr inverts it, and an addressed frame carries its address in
positions 1 to 3. -/
def Obligations.AddressRoundTrip : Prop :=
  ∀ a : Nat, a < 2 ^ 24 →
    (∃ b0 b1 b2 : Byte, le24 a = [b0, b1, b2] ∧ b0.toNat = a % 256 ∧ b1.toNat = a / 256 % 256 ∧ b2.toNat = a / 65536) ∧
    decodeAddr (le24 a) = some a ∧
    ∀ (op : Byte) (p f : Bytes), codecEncode op (some a) p = some f → decodeAddr (slice f 1 4) = some a

/-- R85: encode concatenates the opcode, the 3 address bytes and the payload; R86: an address of 2^24 or more builds no frame; R87:
decode returns raw[skip : len(raw)], and the empty sequence when skip ≥ len(raw). -/
def Obligations.CodecConcatenatesAndDrops : Prop :=
  ∀ (op : Byte) (p : Bytes),
    codecEncode op none p = some ([op] ++ p) ∧
    (∀ a : Nat, a < 2 ^ 24 →
      codecEncode op (some a) p =
        some ([op] ++ [BitVec.ofNat 8 a, BitVec.ofNat 8 (a / 256), BitVec.ofNat 8 (a / 65536)] ++ p)) ∧
    (∀ a : Nat, 2 ^ 24 ≤ a → codecEncode op (some a) p = none) ∧
    ∀ skip : Nat, (∀ k : Nat, (codecDecode p skip)[k]? = p[skip + k]?) ∧ (p.length ≤ skip → codecDecode p skip = [])

/-- Decode inverts encode on every well-formed instruction, wire command or host request, with every operand at every value
its encoding admits (R72, R73, R78, R79). -/
def Obligations.DecodeInvertsEncode : Prop :=
  ∀ (c : Config) (i : Instr), i.wf c = true → ∃ w : Words, encode i = some w ∧ decode w = .ok i

/-- The other direction on frames (R73, R78): a frame that decodes is the encoding of what it decodes to, so no two frames decode
alike. That read-phase bytes must be FILLER is the model's reading (log entry 11). -/
def Obligations.EncodeInvertsFrameDecode : Prop :=
  ∀ (f : Bytes) (i : Instr), decodeFrame f = .ok i → encodeFrame i = some f

/-- R77, R78: a frame that decodes opens with one of the nine opcodes, has the length its format asks for, and is a wire command; the
nine opcodes are distinct. That an RDID frame has at least 3 read bytes (4 ≤ length) is the model's reading (DEDUCED, log entry 11):
R78 itself asks only that the length fit the format. -/
def Obligations.OnlyNineOpcodesDecode : Prop :=
  wireOpcodes.Nodup ∧
  ∀ (f : Bytes) (i : Instr), decodeFrame f = .ok i →
    i.isWire = true ∧
    ∃ op rest, f = op :: rest ∧ op ∈ wireOpcodes ∧
      (op ∈ [opWREN, opBE] → f.length = 1) ∧ (op ∈ [opRDSR, opRFSR] → f.length = 2) ∧ (op ∈ [opSE, opSSE] → f.length = 4) ∧
      (op = opRDID → 4 ≤ f.length) ∧ (op = opREAD → 5 ≤ f.length) ∧ (op = opPP → 5 ≤ f.length ∧ f.length ≤ 260)

/-- Sanity (R72, R79; spec/95_test_vectors.md V2, V7): words written out from the spec's encodings decode to their instructions. -/
def Obligations.SpecWordsDecode : Prop :=
  decodeFrame [0x9F#8, 0x00#8, 0x00#8, 0x00#8] = .ok (.rdid 3) ∧
  decodeFrame [0x05#8, 0x00#8] = .ok .rdsr ∧
  decodeFrame [0x70#8, 0x00#8] = .ok .rfsr ∧
  decodeFrame [0x06#8] = .ok .wren ∧
  decodeFrame [0x02#8, 0x45#8, 0x23#8, 0x01#8, 0xAA#8] = .ok (.pp 0x012345 [0xAA#8]) ∧
  decodeFrame [0xD8#8, 0x00#8, 0x00#8, 0x01#8] = .ok (.se 0x010000) ∧
  decodeFrame [0x20#8, 0x00#8, 0x10#8, 0x00#8] = .ok (.sse 0x001000) ∧
  decodeFrame [0xC7#8] = .ok .be ∧
  decodeFrame [0x03#8, 0x00#8, 0xF8#8, 0xFF#8, 0x00#8, 0x00#8] = .ok (.readData 0xFFF800 2) ∧
  decodeRequest ⟨0x8#4, 0x00000100#32, 0x00000005#32, []⟩ = .ok (.read 0x100#32 5#32) ∧
  decodeRequest ⟨0x7#4, 0x00000010#32, 0#32, [0x55#8]⟩ = .ok (.pageProgram 0x10#32 [0x55#8]) ∧
  decodeFrame [0x9E#8, 0x00#8] = .error (.unknownOpcode 0x9E#8) ∧
  decodeFrame [0x06#8, 0x00#8] = .error (.badLength 0x06#8 2)

/-- R81: the fields a kind ignores are read by no rule. Two requests of one kind that agree on the fields R79 gives that kind decode alike,
and a machine in EXEC steps alike with the one latched or the other: every outcome is the same, but for the latched request itself. -/
def Obligations.IgnoredRequestFieldsUnread : Prop :=
  ∀ r q : Request, r.kind = q.kind →
    (r.kind ∈ [4#4, 5#4, 7#4, 8#4] → r.addr = q.addr) →
    (r.kind = 8#4 → r.len = q.len) →
    (r.kind ∈ [7#4, 9#4, 10#4] → r.data = q.data) →
    decodeRequest r = decodeRequest q ∧
    ∀ s : State, s.seqState = .exec → s.req = r →
      (∀ t, step s = .next t → step { s with req := q } = .next { t with req := q }) ∧
      (∀ f, step s = .fault f → step { s with req := q } = .fault f) ∧
      (∀ e, step s = .refused e → step { s with req := q } = .refused e)

/-- R80, R139: a request with a reserved KIND ends with InvalidRequest, with no bus activity and no register change other than
LAST_STATUS (and the response and SEQ_STATE, R147). -/
def Obligations.ReservedKindRejected : Prop :=
  ∀ s : State, s.cfg.wf = true → s.seqState = .exec →
    s.req.kind ∈ [0x0#4, 0xB#4, 0xC#4, 0xD#4, 0xE#4, 0xF#4] →
    step s = .next
      { s with
        lastStatus := .invalidRequest
        seqState := .ready
        responses := s.responses ++ [{ status := .invalidRequest, fields := .none }] }

/-! ## Steps -/

/-- R20: in READY the oldest request the host holds is latched and SEQ_STATE becomes EXEC in one step, nothing else; with no request
the block waits; in EXEC no request is taken and REQ keeps its value. -/
def Obligations.RequestsAcceptedOneAtATime : Prop :=
  ∀ s : State, s.cfg.wf = true →
    (s.seqState = .ready → s.hostQ = [] → step s = .next s) ∧
    (∀ r rest, s.seqState = .ready → s.hostQ = r :: rest →
      step s = .next { s with req := r, seqState := .exec, pos := ⟨.entry, .single⟩, hostQ := rest }) ∧
    (∀ t, s.seqState = .exec → step s = .next t → t.hostQ = s.hostQ ∧ t.req = s.req)

/-- A step at a request's first line is exec of the request REQ decodes to (R19, R22). -/
def Obligations.StepRunsLatchedRequest : Prop :=
  ∀ (s : State) (i : Instr), Latched i s → s.pos.line = .entry → step s = exec i s

/-- A step at a frame line is exec of the wire command whose frame stands there, followed, when the frame was answered, by the
request's lines up to its next frame (R22; the granularity is log entry 1). -/
def Obligations.StepRunsFrameAtPosition : Prop :=
  ∀ (s : State) (i w : Instr) (f : Bytes), Latched i s → s.pos.line ≠ .entry → lineInstr i s = some w → encodeFrame w = some f →
    w.wf s.cfg = true →
    decodeFrame f = .ok w ∧
    ∃ t, exec w s = .next t ∧
      step s = .next (if t.seqState = .ready ∨ t.cs = true then t else advance i t)

/-- A placed instruction is the one the next step runs, under a configuration the machine runs with: a host request by exec of it at its
first line; a wire command by exec of it at the line of a request that sends it, followed, when it was answered, by that request's
lines. withFetchWord places the instruction of its table word. How a program comes to run is the model's choice (log entry 10). -/
def Obligations.PlacedInstructionRuns : Prop :=
  ∀ (s : State) (i : Instr), s.cfg.wf = true → i.wf s.cfg = true →
    (placeInstr i s).seqState = .exec ∧ (placeInstr i s).cfg = s.cfg ∧ (placeInstr i s).answers = s.answers ∧
    (i.isWire = false → decodeRequest (placeInstr i s).req = .ok i ∧ step (placeInstr i s) = exec i (placeInstr i s)) ∧
    (i.isWire = true → ∃ j t, decodeRequest (placeInstr i s).req = .ok j ∧ lineInstr j (placeInstr i s) = some i ∧
      exec i (placeInstr i s) = .next t ∧
      step (placeInstr i s) = .next (if t.seqState = .ready ∨ t.cs = true then t else advance j t)) ∧
    ∀ nbits w : Nat, decodeTableWord nbits w = some i → s.withFetchWord nbits w = placeInstr i s

/-! ## Wire commands -/

/-- R90 to R93, R98 with R13: RDID, RDSR, RFSR, READ_DATA and WREN, answered with the frame's length, complete: CS deasserted, the event
in TRACE, the answer in resp, and nothing else changed; WSTATE is not. -/
def Obligations.PlainFramesComplete : Prop :=
  ∀ (s : State) (i : Instr) (f r : Bytes) (rest : List Answer),
    ((∃ n, i = .rdid n ∧ f = 0x9F#8 :: List.replicate n 0x00#8) ∨ (i = .rdsr ∧ f = [0x05#8, 0x00#8]) ∨
      (i = .rfsr ∧ f = [0x70#8, 0x00#8]) ∨
      (∃ a n, a < 2 ^ 24 ∧ i = .readData a n ∧ f = [0x03#8] ++ le24 a ++ List.replicate n 0x00#8) ∨
      (i = .wren ∧ f = [0x06#8])) →
    s.answers = .bytes r :: rest → r.length = f.length →
    exec i s = .next
      { s with
        cs := false
        answers := rest
        trace := s.trace ++ [{ frame := f, answer := .bytes r }]
        work := { s.work with resp := r } }

/-- R94 to R97, R113: PP, SE, SSE and BE complete and set WSTATE <- UNKNOWN. -/
def Obligations.DestructiveFramesComplete : Prop :=
  ∀ (s : State) (i : Instr) (f r : Bytes) (rest : List Answer),
    ((∃ a d, a < 2 ^ 24 ∧ i = .pp a d ∧ f = [0x02#8] ++ le24 a ++ d) ∨
      (∃ a, a < 2 ^ 24 ∧ i = .se a ∧ f = [0xD8#8] ++ le24 a) ∨
      (∃ a, a < 2 ^ 24 ∧ i = .sse a ∧ f = [0x20#8] ++ le24 a) ∨ (i = .be ∧ f = [0xC7#8])) →
    s.answers = .bytes r :: rest → r.length = f.length →
    exec i s = .next
      { s with
        cs := false
        answers := rest
        trace := s.trace ++ [{ frame := f, answer := .bytes r }]
        work := { s.work with resp := r }
        wstate := .unknown }

/-- R143, R147, R148: a frame answered by `fail` or with another length raises TransportFailure: the event stays in TRACE, CS is
deasserted, WSTATE <- UNKNOWN, the request ends with that status alone, and nothing else changes; the step that sent it runs no
further line of the request. -/
def Obligations.FailedTransferEndsRequest : Prop :=
  ∀ (s : State) (i w : Instr) (f : Bytes) (a : Answer) (rest : List Answer),
    w.isWire = true → encodeFrame w = some f → s.answers = a :: rest → (∀ r, a = .bytes r → r.length ≠ f.length) →
    exec w s = .next
      { s with
        cs := false
        answers := rest
        trace := s.trace ++ [{ frame := f, answer := a }]
        wstate := .unknown
        lastStatus := .transportFailure
        seqState := .ready
        responses := s.responses ++ [{ status := .transportFailure, fields := .none }] } ∧
    (Latched i s → s.pos.line ≠ .entry → lineInstr i s = some w → step s = exec w s)

/-- U11 (spec/93_implementation_defined.md), R13 step 2: while the transport does not answer, the block waits at the same line with CS
asserted, for ever, and gives no response. -/
def Obligations.UnansweredFrameWaits : Prop :=
  ∀ (s : State) (i w : Instr) (f : Bytes) (n : Nat), Latched i s → s.pos.line ≠ .entry → lineInstr i s = some w →
    encodeFrame w = some f → s.answers = [] →
    exec w s = .next { s with cs := true } ∧ Host.Core.run Sys2Proof.core (n + 1) s = .next { s with cs := true }

/-- R86, U12: a wire command whose address is 2^24 or more is a fault of the model; nothing is sent. -/
def Obligations.AddressBeyondLimitFaults : Prop :=
  ∀ (s : State) (a n : Nat) (d : Bytes), 2 ^ 24 ≤ a →
    exec (.pp a d) s = .fault .addressOutOfRange ∧ exec (.se a) s = .fault .addressOutOfRange ∧
    exec (.sse a) s = .fault .addressOutOfRange ∧ exec (.readData a n) s = .fault .addressOutOfRange

/-- R71, R74, U2: the skipped bytes of an answer, and the whole answer to WREN, PP, SE, SSE and BE, are read by nothing. Two answers of
the frame's length that agree on the bytes the decoder keeps give states that differ in TRACE and in the raw resp only. -/
def Obligations.SkippedBytesUnread : Prop :=
  ∀ (s t1 t2 : State) (i w : Instr) (f r1 r2 : Bytes) (rest : List Answer),
    Latched i s → s.pos.line ≠ .entry → lineInstr i s = some w → encodeFrame w = some f →
    r1.length = f.length → r2.length = f.length →
    (w ∈ [.rdsr, .rfsr] ∨ (∃ n, w = .rdid n) → r1.drop 1 = r2.drop 1) → ((∃ a n, w = .readData a n) → r1.drop 4 = r2.drop 4) →
    step { s with answers := .bytes r1 :: rest } = .next t1 → step { s with answers := .bytes r2 :: rest } = .next t2 →
    { t1 with trace := s.trace, work := { t1.work with resp := [] } } = { t2 with trace := s.trace, work := { t2.work with resp := [] } }

/-! ## Errors -/

/-- R147: the error entry, for every error kind. -/
def Obligations.ErrorEntryWrites : Prop :=
  ∀ (s : State) (e : ErrKind) (st : Status),
    (e, st) ∈ [(ErrKind.invalidArgument, Status.invalidArgument), (.transportFailure, .transportFailure), (.notResolved, .notResolved),
      (.invalidState, .invalidState), (.invalidRequest, .invalidRequest)] →
    raise e s = .next
      { s with
        wstate := if e = .transportFailure then .unknown else s.wstate
        lastStatus := st
        responses := s.responses ++ [{ status := st, fields := .none }]
        seqState := .ready }

/-- R141: every request but IDENTIFY ends with NotResolved while GEOM_VALID = 0; nothing else is recorded, but that VERIFY clears
VERIFY_VALID first. -/
def Obligations.UnresolvedRequestsRejected : Prop :=
  ∀ (s : State) (i : Instr), s.geom.valid = false → i.isWire = false → i ≠ .identify →
    exec i s = .next
      { s with
        verify := { s.verify with valid := s.verify.valid && !i.clearsVerify }
        lastStatus := .notResolved
        responses := s.responses ++ [{ status := .notResolved, fields := .none }]
        seqState := .ready }

/-- R140: IDENTIFY while GEOM_VALID = 1 ends with InvalidState; it records nothing but LAST_STATUS. -/
def Obligations.SecondIdentifyRejected : Prop :=
  ∀ s : State, s.geom.valid = true →
    exec .identify s = .next
      { s with
        lastStatus := .invalidState
        responses := s.responses ++ [{ status := .invalidState, fields := .none }]
        seqState := .ready }

/-- R142: once the geometry is resolved, a request ends with InvalidArgument before any bus activity in the cases of the rule's table
and no others. -/
def Obligations.InvalidArgumentsRejected : Prop :=
  ∀ (s : State) (i : Instr), s.geom.valid = true → i.isWire = false →
    (argumentInvalid s.geom i →
      exec i s = .next
        { s with
          verify := { s.verify with valid := s.verify.valid && !i.clearsVerify }
          lastStatus := .invalidArgument
          responses := s.responses ++ [{ status := .invalidArgument, fields := .none }]
          seqState := .ready }) ∧
    (¬ argumentInvalid s.geom i →
      ∃ t, exec i s = .next t ∧ ∀ r, t.responses = s.responses ++ [r] → r.status ≠ .invalidArgument)

/-- R146: the codes InvalidRequest, InvalidState, NotResolved and InvalidArgument come from a request's first line, in a step that
sends no frame; a request that stands at a frame line ends with OK or TransportFailure only. -/
def Obligations.EarlyErrorsSendNoFrame : Prop :=
  ∀ (s t : State) (r : Response), Inv s → step s = .next t → t.responses = s.responses ++ [r] →
    (r.status ∈ [Status.invalidRequest, .invalidState, .notResolved, .invalidArgument] →
      s.pos.line = .entry ∧ t.trace = s.trace ∧ t.answers = s.answers) ∧
    (s.pos.line ≠ .entry → r.status = .ok ∨ r.status = .transportFailure)

/-- The frame of every host request's first line: no configuration, latch, identification, geometry, warning, WSTATE, LAST_POLL, CS,
TRACE or channel input changes; RBUF only in READ and VERIFY; the verify registers only in VERIFY; of the working registers
never resp and b (R41's writers; R105 to R132). -/
def Obligations.RequestEntryFrame : Prop :=
  ∀ (s t : State) (i : Instr), i.isWire = false → exec i s = .next t →
    t.cfg = s.cfg ∧ t.req = s.req ∧ t.ident = s.ident ∧ t.geom = s.geom ∧ t.warn = s.warn ∧ t.wstate = s.wstate ∧
    t.poll = s.poll ∧ t.cs = s.cs ∧ t.trace = s.trace ∧ t.hostQ = s.hostQ ∧ t.answers = s.answers ∧
    t.work.resp = s.work.resp ∧ t.work.b = s.work.b ∧
    ((∀ a l, i ≠ .read a l) → (∀ d, i ≠ .verify d) → t.rbuf = s.rbuf) ∧
    ((∀ d, i ≠ .verify d) → t.verify = s.verify)

/-! ## Requests run to their end -/

/-- R105, R99: IDENTIFY from its first line: one RDID frame, the identification registers from response bytes 1, 2, 3 and on, the
geometry of the table's entry or of the unknown family, GEOM_VALID <- 1, OK with the registers as fields; nothing else. That
GEOM_SUBSECTOR_LEN keeps its old value where the subsector is ABSENT or the chip unknown is the model's reading (DEDUCED, log entry
17): R28 says that the register then has no value. -/
def Obligations.IdentifyCompletes : Prop :=
  ∀ (s : State) (x m ty c : Byte) (uid : Bytes) (rest : List Answer),
    Latched .identify s → s.geom.valid = false → uid.length = s.cfg.uidLen → s.answers = .bytes (x :: m :: ty :: c :: uid) :: rest →
    ∃ t0 t, exec .identify s = .next t0 ∧ Host.Core.run Sys2Proof.core 1 t0 = .next t ∧
      t =
        { s with
          seqState := .ready
          pos := t.pos
          work := t.work
          ident := { mfr := m, type := ty, cap := c, uid := uid }
          geom := t.geom
          warn := t.warn
          lastStatus := .ok
          cs := false
          trace := s.trace ++ [{ frame := 0x9F#8 :: List.replicate (3 + s.cfg.uidLen) 0x00#8, answer := .bytes (x :: m :: ty :: c :: uid) }]
          answers := rest
          responses := s.responses ++
            [{ status := .ok,
               fields := .identify { mfr := m, type := ty, cap := c, uid := uid } t.geom.family t.geom.sectorLen
                 (if t.geom.subValid then some t.geom.subLen else none) t.geom.busy t.warn }] } ∧
      (∀ e ∈ s.cfg.geomTable, e.mfr = m → e.type = ty →
        t.geom.valid = true ∧ t.geom.family = e.desc.family ∧ t.geom.sectorLen.toNat = e.desc.sectorLen ∧
        t.geom.busy = e.desc.busy ∧ t.warn = false ∧
        (e.desc.subsectorLen = none → t.geom.subValid = false ∧ t.geom.subLen = s.geom.subLen) ∧
        (∀ n, e.desc.subsectorLen = some n → t.geom.subValid = true ∧ t.geom.subLen.toNat = n)) ∧
      ((∀ e ∈ s.cfg.geomTable, ¬ (e.mfr = m ∧ e.type = ty)) →
        t.geom = { valid := true, family := .unknown, sectorLen := 65536#32, subValid := false, subLen := s.geom.subLen, busy := .status } ∧
        t.warn = true)

/-- R102: resolve returns the entry of the key, whose place in a well-formed table does not matter, or the unknown-family
descriptor (UNKNOWN, 65536, ABSENT, STATUS) with unknown = 1. -/
def Obligations.ResolveFollowsTable : Prop :=
  ∀ (table : List GeomEntry) (m ty : Byte), distinctKeys table = true →
    (∀ e ∈ table, e.mfr = m → e.type = ty → resolve table m ty = (e.desc, false)) ∧
    ((∀ e ∈ table, ¬ (e.mfr = m ∧ e.type = ty)) → resolve table m ty = (⟨.unknown, 65536, none, .status⟩, true))

/-- R111, R109: POLL sends one status frame of the family's method, puts the byte in LAST_POLL and its state in WSTATE, and responds
OK with both. -/
def Obligations.PollCompletes : Prop :=
  ∀ (s : State) (x b : Byte) (rest : List Answer), Latched .poll s → s.geom.valid = true → s.answers = .bytes [x, b] :: rest →
    ∃ t0 t, exec .poll s = .next t0 ∧ Host.Core.run Sys2Proof.core 1 t0 = .next t ∧
      t =
        { s with
          seqState := .ready
          pos := t.pos
          work := t.work
          wstate := checkBusy s.geom.busy b
          poll := { value := b, valid := true }
          lastStatus := .ok
          cs := false
          trace := s.trace ++
            [{ frame := (match s.geom.busy with | .status => [0x05#8, 0x00#8] | .flag => [0x70#8, 0x00#8]), answer := .bytes [x, b] }]
          answers := rest
          responses := s.responses ++ [{ status := .ok, fields := .poll (checkBusy s.geom.busy b) b }] }

/-- R112, R110: WAIT_IDLE polls, at least once, until a poll reports idle, and responds OK with LAST_POLL. -/
def Obligations.WaitIdleCompletes : Prop :=
  ∀ (s : State) (w : WaitScript) (rest : List Answer),
    Latched .waitIdle s → s.geom.valid = true → w.fits s.geom.busy = true → s.answers = w.answers ++ rest →
    ∃ t0 t, exec .waitIdle s = .next t0 ∧ Host.Core.run Sys2Proof.core (w.busy.length + 1) t0 = .next t ∧
      t =
        { s with
          seqState := .ready
          pos := t.pos
          work := t.work
          wstate := .idle
          poll := { value := w.idleByte, valid := true }
          lastStatus := .ok
          cs := false
          trace := s.trace ++ w.events s.geom.busy
          answers := rest
          responses := s.responses ++ [{ status := .ok, fields := .waitIdle w.idleByte }] }

/-- R118, R117: ERASE_SECTOR of an aligned address sends the polls up to idle, [0x06], [0xD8] ++ le24(a), and responds OK. -/
def Obligations.EraseSectorCompletes : Prop :=
  ∀ (s : State) (a : BitVec 32) (w : WriteScript) (rest : List Answer),
    Latched (.eraseSector a) s → s.geom.valid = true → a.toNat < 2 ^ 24 → a.toNat % s.geom.sectorLen.toNat = 0 →
    w.fits s.geom.busy ([0xD8#8] ++ le24 a.toNat) = true → s.answers = w.answers ++ rest →
    ∃ t0 t, exec (.eraseSector a) s = .next t0 ∧ Host.Core.run Sys2Proof.core w.steps t0 = .next t ∧
      WritesDone s t w.wait.idleByte (w.events s.geom.busy ([0xD8#8] ++ le24 a.toNat)) rest

/-- R119, R117: ERASE_SUBSECTOR of an aligned address, on a family with subsectors: the polls, [0x06], [0x20] ++ le24(a), OK. -/
def Obligations.EraseSubsectorCompletes : Prop :=
  ∀ (s : State) (a : BitVec 32) (w : WriteScript) (rest : List Answer),
    Latched (.eraseSubsector a) s → s.geom.valid = true → s.geom.subValid = true → a.toNat < 2 ^ 24 →
    a.toNat % s.geom.subLen.toNat = 0 →
    w.fits s.geom.busy ([0x20#8] ++ le24 a.toNat) = true → s.answers = w.answers ++ rest →
    ∃ t0 t, exec (.eraseSubsector a) s = .next t0 ∧ Host.Core.run Sys2Proof.core w.steps t0 = .next t ∧
      WritesDone s t w.wait.idleByte (w.events s.geom.busy ([0x20#8] ++ le24 a.toNat)) rest

/-- R120, R117: ERASE_BULK: the polls, [0x06], [0xC7], OK. -/
def Obligations.EraseBulkCompletes : Prop :=
  ∀ (s : State) (w : WriteScript) (rest : List Answer),
    Latched .eraseBulk s → s.geom.valid = true → w.fits s.geom.busy [0xC7#8] = true → s.answers = w.answers ++ rest →
    ∃ t0 t, exec .eraseBulk s = .next t0 ∧ Host.Core.run Sys2Proof.core w.steps t0 = .next t ∧
      WritesDone s t w.wait.idleByte (w.events s.geom.busy [0xC7#8]) rest

/-- R121, R117: PAGE_PROGRAM of 1 to 256 bytes inside one page: the polls, [0x06], [0x02] ++ le24(a) ++ d, OK. -/
def Obligations.PageProgramCompletes : Prop :=
  ∀ (s : State) (a : BitVec 32) (d : Bytes) (w : WriteScript) (rest : List Answer),
    Latched (.pageProgram a d) s → s.geom.valid = true → 1 ≤ d.length → a.toNat < 2 ^ 24 → a.toNat % 256 + d.length ≤ 256 →
    w.fits s.geom.busy ([0x02#8] ++ le24 a.toNat ++ d) = true → s.answers = w.answers ++ rest →
    ∃ t0 t, exec (.pageProgram a d) s = .next t0 ∧ Host.Core.run Sys2Proof.core w.steps t0 = .next t ∧
      WritesDone s t w.wait.idleByte (w.events s.geom.busy ([0x02#8] ++ le24 a.toNat ++ d)) rest

/-- R122 to R128: PROGRAM of at most 2^24 bytes, under either strategy, sends one write step for each of its erase frames and then one
for each of its pages, in increasing order, with nothing between, and responds OK right after the last page. An empty image
sends no frame; that the place and the working registers then stay as they are is the model's choice (log entry 13). -/
def Obligations.ProgramCompletes : Prop :=
  ∀ (s : State) (d : Bytes),
    Latched (.program d) s → s.geom.valid = true → s.geom.sectorLen.toNat ≠ 0 → d.length ≤ 2 ^ 24 →
    (d = [] →
      exec (.program d) s = .next
        { s with
          seqState := .ready
          lastStatus := .ok
          responses := s.responses ++ [{ status := .ok, fields := .none }] }) ∧
    (∀ (ws : List WriteScript) (w : WriteScript) (rest : List Answer), d ≠ [] →
      (ws ++ [w]).length = (imageFrames s.cfg s.geom d).length →
      (∀ p ∈ (ws ++ [w]).zip (imageFrames s.cfg s.geom d), p.1.fits s.geom.busy p.2 = true) →
      s.answers = (ws ++ [w]).flatMap WriteScript.answers ++ rest →
      ∃ t0 t, exec (.program d) s = .next t0 ∧
        Host.Core.run Sys2Proof.core ((ws ++ [w]).map WriteScript.steps).sum t0 = .next t ∧
        WritesDone s t w.wait.idleByte
          (((ws ++ [w]).zip (imageFrames s.cfg s.geom d)).flatMap (fun p => p.1.events s.geom.busy p.2)) rest)

/-- R130, R129, R114, R131: READ of L bytes inside the address space waits for idle only when WSTATE ≠ IDLE, sends ceil(L / READ_CHUNK)
read-data frames, and returns exactly L bytes, the kept bytes of the answers in order. L = 0 sends no frame; that the place and the
working registers then stay as they are is the model's choice (log entry 13). -/
def Obligations.ReadCompletes : Prop :=
  ∀ (s : State) (a l : BitVec 32),
    Latched (.read a l) s → s.geom.valid = true → a.toNat < 2 ^ 24 → a.toNat + l.toNat ≤ 2 ^ 24 →
    (l.toNat = 0 →
      exec (.read a l) s = .next
        { s with
          seqState := .ready
          lastStatus := .ok
          rbuf := []
          responses := s.responses ++ [{ status := .ok, fields := .read [] }] }) ∧
    (∀ (w : Option WaitScript) (rs : List Bytes) (rest : List Answer), l.toNat ≠ 0 → EnsureFits s w →
      lengthsFit (chunkFrames s.cfg a.toNat l.toNat) rs = true → s.answers = ensureAnswers w ++ rs.map Answer.bytes ++ rest →
      (chunkData rs).length = l.toNat ∧
      ∃ t0 t, exec (.read a l) s = .next t0 ∧
        Host.Core.run Sys2Proof.core ((ensureAnswers w).length + rs.length) t0 = .next t ∧
        t =
          { s with
            seqState := .ready
            pos := t.pos
            work := t.work
            wstate := .idle
            poll := ensurePoll s w
            lastStatus := .ok
            cs := false
            rbuf := chunkData rs
            trace := s.trace ++ ensureEvents s.geom.busy w ++ zipEvents (chunkFrames s.cfg a.toNat l.toNat) rs
            answers := rest
            responses := s.responses ++ [{ status := .ok, fields := .read (chunkData rs) }] })

/-- R132 to R134, R145: VERIFY of a reference of at most 2^24 bytes reads that many bytes from address 0 and responds OK: matched when
they are equal, else with the least differing offset and the windows from it. An empty reference matches with no frame. That the
offset and the windows keep their old values on a match is the model's reading (DEDUCED, log entry 17: R35 and R36 give them no value
then), and that the place and the working registers stay as they are in the empty case its choice (log entry 13). -/
def Obligations.VerifyCompletes : Prop :=
  ∀ (s : State) (ref : Bytes),
    Latched (.verify ref) s → s.geom.valid = true → ref.length ≤ 2 ^ 24 →
    (ref = [] →
      exec (.verify ref) s = .next
        { s with
          seqState := .ready
          lastStatus := .ok
          rbuf := []
          verify := { s.verify with matched := true, offsetValid := false, valid := true }
          responses := s.responses ++ [{ status := .ok, fields := .verify none }] }) ∧
    (∀ (w : Option WaitScript) (rs : List Bytes) (rest : List Answer), ref ≠ [] → EnsureFits s w →
      lengthsFit (chunkFrames s.cfg 0 ref.length) rs = true → s.answers = ensureAnswers w ++ rs.map Answer.bytes ++ rest →
      ∃ t0 t, exec (.verify ref) s = .next t0 ∧
        Host.Core.run Sys2Proof.core ((ensureAnswers w).length + rs.length) t0 = .next t ∧
        t =
          { s with
            seqState := .ready
            pos := t.pos
            work := t.work
            wstate := .idle
            poll := ensurePoll s w
            lastStatus := .ok
            cs := false
            rbuf := chunkData rs
            verify := t.verify
            trace := s.trace ++ ensureEvents s.geom.busy w ++ zipEvents (chunkFrames s.cfg 0 ref.length) rs
            answers := rest
            responses := s.responses ++
              [{ status := .ok,
                 fields := .verify (if chunkData rs = ref then none
                   else some { offset := t.verify.offset, winRead := t.verify.winRead, winRef := t.verify.winRef }) }] } ∧
        (chunkData rs = ref →
          t.verify = { s.verify with matched := true, offsetValid := false, valid := true }) ∧
        (chunkData rs ≠ ref →
          t.verify.valid = true ∧ t.verify.matched = false ∧ t.verify.offsetValid = true ∧
          (∀ k, k < t.verify.offset.toNat → (chunkData rs)[k]? = ref[k]?) ∧
          (chunkData rs)[t.verify.offset.toNat]? ≠ ref[t.verify.offset.toNat]? ∧
          t.verify.winRead = ((chunkData rs).drop t.verify.offset.toNat).take s.cfg.verifyWindow ∧
          t.verify.winRef = (ref.drop t.verify.offset.toNat).take s.cfg.verifyWindow))

/-! ## The rules of the machine as a whole -/

/-- R133: compare finds the least offset at which two sequences of one length differ, and nothing when they are equal. -/
def Obligations.CompareFindsFirstMismatch : Prop :=
  ∀ r ref : Bytes, r.length = ref.length →
    (compareBytes r ref = none ↔ r = ref) ∧
    (∀ i, compareBytes r ref = some i ↔ i < r.length ∧ r[i]? ≠ ref[i]? ∧ ∀ k, k < i → r[k]? = ref[k]?)

/-- R107: the busy bit of each method, and that no other bit takes part. -/
def Obligations.CheckBusyPolarity : Prop :=
  ∀ b : Byte,
    checkBusy .status b = (if b.getLsbD 0 = true then .busy else .idle) ∧
    checkBusy .flag b = (if b.getLsbD 7 = false then .busy else .idle)

/-- R108: the five transitions of the rule's table and no others. A step that sends no frame leaves WSTATE; after a frame it is UNKNOWN
when the transfer failed, the polled state after a status frame, UNKNOWN after a destructive frame, and unchanged after any other;
reset sets it to UNKNOWN. -/
def Obligations.WriteStateTransitions : Prop :=
  (∀ s t : State, step s = .next t →
    (t.trace = s.trace → t.wstate = s.wstate) ∧
    ∀ e : Event, t.trace = s.trace ++ [e] →
      t.wstate =
        if e.answered = false then .unknown
        else if e.frame ∈ [[0x05#8, 0x00#8], [0x70#8, 0x00#8]] then (if e.reportsIdle = true then .idle else .busy)
        else if e.frame.head? ∈ [some 0x02#8, some 0xD8#8, some 0x20#8, some 0xC7#8] then .unknown
        else s.wstate) ∧
  (∀ s t : State, s.resetEvent = .next t → t.wstate = .unknown)

/-- R106: once GEOM_VALID = 1 no step changes an identification or geometry register or the warning. -/
def Obligations.GeometryImmutable : Prop :=
  ∀ s t : State, Inv s → s.geom.valid = true → step s = .next t → t.ident = s.ident ∧ t.geom = s.geom ∧ t.warn = s.warn

/-- R41's column "written by", R17, R42, row by row: the configuration is never written, TRACE only grows, by one event at most, and
SEQ_STATE, REQ, the identification and geometry registers with the warning, WSTATE, LAST_POLL, LAST_STATUS, the verify registers, CS,
RBUF and the working registers change only in a step in which a writer of theirs is at work. -/
def Obligations.RegistersWrittenByTheirWriters : Prop :=
  ∀ s t : State, step s = .next t →
    t.cfg = s.cfg ∧
    (t.trace = s.trace ∨ ∃ e, t.trace = s.trace ++ [e]) ∧
    (t.seqState ≠ s.seqState →
      (s.seqState = .ready ∧ s.hostQ = t.req :: t.hostQ) ∨ (s.seqState = .exec ∧ ∃ r, t.responses = s.responses ++ [r])) ∧
    (t.req ≠ s.req → s.seqState = .ready ∧ s.hostQ = t.req :: t.hostQ) ∧
    (t.ident ≠ s.ident ∨ t.geom ≠ s.geom ∨ t.warn ≠ s.warn → s.seqState = .exec ∧ s.pos.line = .sendRdid) ∧
    (t.wstate ≠ s.wstate → s.seqState = .exec ∧
      ∃ e, t.trace = s.trace ++ [e] ∧ (s.pos.line ∈ [.pollOnce, .waitIdle, .destructive] ∨ e.answered = false)) ∧
    (t.poll ≠ s.poll → s.seqState = .exec ∧ s.pos.line ∈ [.pollOnce, .waitIdle]) ∧
    (t.lastStatus ≠ s.lastStatus → ∃ r, t.responses = s.responses ++ [r] ∧ t.lastStatus = r.status) ∧
    (t.verify ≠ s.verify → s.seqState = .exec ∧ ∃ d, decodeRequest s.req = .ok (.verify d)) ∧
    (t.cs ≠ s.cs → s.seqState = .exec ∧ s.pos.line ≠ .entry ∧ ∃ i, decodeRequest s.req = .ok i) ∧
    (t.rbuf ≠ s.rbuf →
      s.seqState = .exec ∧ ((∃ a l, decodeRequest s.req = .ok (.read a l)) ∨ ∃ d, decodeRequest s.req = .ok (.verify d))) ∧
    (t.work ≠ s.work → s.seqState = .exec)

/-- R82, R18: a step that responds adds exactly one response, ends an executing request and leaves READY, LAST_STATUS its status, and no
other field with an error; a step that does not respond ends no request. -/
def Obligations.OneResponsePerRequest : Prop :=
  ∀ s t : State, step s = .next t →
    (t.responses = s.responses ∧ (s.seqState = .exec → t.seqState = .exec)) ∨
    (s.seqState = .exec ∧ t.seqState = .ready ∧
      ∃ r, t.responses = s.responses ++ [r] ∧ t.lastStatus = r.status ∧ (r.status ≠ .ok → r.fields = .none))

/-- R37, R13: after a step CS is asserted only while a frame waits for the transport's answer; in particular never in READY. -/
def Obligations.ChipSelectOnlyInTransfer : Prop :=
  ∀ s t : State, Inv s → step s = .next t → t.cs = true →
    t.seqState = .exec ∧ t.answers = [] ∧ t.pos.line ≠ .entry ∧ t.trace = s.trace

/-- The invariant of Safety.lean is kept by every step. -/
def Obligations.StepKeepsInvariant : Prop :=
  ∀ s t : State, Inv s → step s = .next t → Inv t

/-- It holds right after reset, under every well-formed configuration. -/
def Obligations.ResetMeetsInvariant : Prop :=
  (∀ c : Config, c.wf = true → Inv (State.resetWith c)) ∧ Inv State.reset

/-- The host, the transport and the reset event keep it too. -/
def Obligations.OutsideMovesKeepInvariant : Prop :=
  ∀ s : State, Inv s → (∀ r, Inv (s.offer r)) ∧ (∀ a, Inv (s.supply a)) ∧ ∀ t, s.resetEvent = .next t → Inv t

/-- R117, R163, R164, over every run of the three agents: in TRACE every PP, SE, SSE and BE frame stands right after a WREN frame that was
answered, and that WREN right after a status frame that reported idle. -/
def Obligations.WriteEnablePrecedesEveryDestructiveFrame : Prop :=
  ∀ (c : Config) (s : State) (older newer : List Event) (e : Event) (w : Instr), c.wf = true → Reachable c s →
    s.trace = older ++ e :: newer → decodeFrame e.frame = .ok w → w.isDestructive = true →
    ∃ (old : List Event) (p v : Event), older = old ++ [p, v] ∧ v.frame = [0x06#8] ∧ v.answered = true ∧ p.reportsIdle = true

/-- R115, R165, R162: a WREN, PP, SE, SSE, BE or READ_DATA frame is sent only while WSTATE = IDLE, RDID only while GEOM_VALID = 0. -/
def Obligations.CommandsOnlyToAnIdleChip : Prop :=
  ∀ (s t : State) (e : Event) (w : Instr), Inv s → step s = .next t → t.trace = s.trace ++ [e] → decodeFrame e.frame = .ok w →
    (w = .wren ∨ w.isDestructive = true ∨ (∃ a n, w = .readData a n) → s.wstate = .idle) ∧
    ((∃ n, w = .rdid n) → s.geom.valid = false)

/-- R116, R152, R170: while every poll of a WaitIdle reports busy, for any number of polls, the request gives no response and SEQ_STATE
stays EXEC. -/
def Obligations.BusyChipHangsRequest : Prop :=
  ∀ (s : State) (i : Instr) (ps : List (Byte × Byte)) (rest : List Answer),
    Latched i s → s.pos.line = .waitIdle → (waitRole i).isSome = true →
    (∀ p ∈ ps, checkBusy s.geom.busy p.2 = .busy) → s.answers = ps.map (fun p => Answer.bytes [p.1, p.2]) ++ rest →
    ∃ t, Host.Core.run Sys2Proof.core ps.length s = .next t ∧ t.seqState = .exec ∧ t.pos = s.pos ∧ t.req = s.req ∧
      t.responses = s.responses ∧ t.answers = rest ∧ t.trace.length = s.trace.length + ps.length ∧
      (ps ≠ [] → t.wstate = .busy)

/-- Under the invariant a step always goes on: no state that a run reaches ends in a fault or a refusal. -/
def Obligations.StepAlwaysGoesOn : Prop :=
  ∀ s : State, Inv s → ∃ t, step s = .next t

/-- R100, U9, R161: a configuration with READ_CHUNK = 0, or whose table is not well-formed (a sector length that is 0, 2^32 or more, or
no multiple of 256; a present subsector length that is; the family UNKNOWN; two entries with one key), is refused and never run, and no
other is. -/
def Obligations.IllFormedConfigurationRefused : Prop :=
  ∀ s : State,
    (s.cfg.readChunk = 0 ∨
      (∃ e ∈ s.cfg.geomTable,
        e.desc.sectorLen = 0 ∨ 2 ^ 32 ≤ e.desc.sectorLen ∨ e.desc.sectorLen % 256 ≠ 0 ∨ e.desc.family = .unknown ∨
        ∃ n, e.desc.subsectorLen = some n ∧ (n = 0 ∨ 2 ^ 32 ≤ n ∨ n % 256 ≠ 0)) ∨
      (∃ (pre mid post : List GeomEntry) (e f : GeomEntry),
        s.cfg.geomTable = pre ++ e :: mid ++ f :: post ∧ e.mfr = f.mfr ∧ e.type = f.type)) ↔
    step s = .refused .illFormedConfig

/-- R41, R44, U8, with the encodings of R18, R25, R29, R32, R138: in READY the status view gives every host-visible register's value, and
faults on one that has no value: the identification and geometry registers until GEOM_VALID, GEOM_SUBSECTOR_LEN without a subsector,
the verify results until VERIFY_VALID, the offset unless VERIFY_OFFSET_VALID, the windows after a match, and, under the invariant, the
offset after a match. That LAST_POLL has a value from the first poll on is the model's bit `poll.valid` (log entry 6). -/
def Obligations.StatusViewGivesOrFaults : Prop :=
  ∀ (s : State) (n : Nat), s.seqState = .ready →
    statusView n .seqState s = .ok (.num 0) ∧
    statusView n .pageLen s = .ok (.num 256) ∧
    statusView n .geomValid s = .ok (.num (if s.geom.valid = true then 1 else 0)) ∧
    statusView n .warnUnknownChip s = .ok (.num (if s.warn = true then 1 else 0)) ∧
    statusView n .verifyValid s = .ok (.num (if s.verify.valid = true then 1 else 0)) ∧
    statusView n .cs s = .ok (.num (if s.cs = true then 1 else 0)) ∧
    (∀ w k, (w, k) ∈ [(WState.unknown, 0), (.busy, 1), (.idle, 2)] → s.wstate = w → statusView n .wstate s = .ok (.num k)) ∧
    (∀ c k, (c, k) ∈ [(Status.ok, 0), (.invalidArgument, 1), (.transportFailure, 2), (.notResolved, 3), (.invalidState, 4),
        (.invalidRequest, 5)] → s.lastStatus = c → statusView n .lastStatus s = .ok (.num k)) ∧
    (s.geom.valid = true →
      statusView n .idMfr s = .ok (.num s.ident.mfr.toNat) ∧ statusView n .idType s = .ok (.num s.ident.type.toNat) ∧
      statusView n .idCap s = .ok (.num s.ident.cap.toNat) ∧ statusView n .idUid s = .ok (.bytes s.ident.uid) ∧
      (∀ f k, (f, k) ∈ [(Family.familyA, 0), (.familyB, 1), (.familyC, 2), (.unknown, 3)] → s.geom.family = f →
        statusView n .geomFamily s = .ok (.num k)) ∧
      statusView n .geomSectorLen s = .ok (.num s.geom.sectorLen.toNat) ∧
      statusView n .geomSubsectorValid s = .ok (.num (if s.geom.subValid = true then 1 else 0)) ∧
      (s.geom.subValid = true → statusView n .geomSubsectorLen s = .ok (.num s.geom.subLen.toNat)) ∧
      (s.geom.subValid = false → statusView n .geomSubsectorLen s = .error (.noValue .geomSubsectorLen)) ∧
      (∀ m k, (m, k) ∈ [(BusyMethod.status, 0), (.flag, 1)] → s.geom.busy = m → statusView n .geomBusyMethod s = .ok (.num k))) ∧
    (∀ r, r ∈ [ViewReg.idMfr, .idType, .idCap, .idUid, .geomFamily, .geomSectorLen, .geomSubsectorValid, .geomSubsectorLen, .geomBusyMethod] →
      s.geom.valid = false → statusView n r s = .error (.noValue r)) ∧
    (s.poll.valid = true → statusView n .lastPoll s = .ok (.num s.poll.value.toNat)) ∧
    (s.poll.valid = false → statusView n .lastPoll s = .error (.noValue .lastPoll)) ∧
    (s.verify.valid = true →
      statusView n .verifyMatched s = .ok (.num (if s.verify.matched = true then 1 else 0)) ∧
      statusView n .verifyOffsetValid s = .ok (.num (if s.verify.offsetValid = true then 1 else 0)) ∧
      (s.verify.offsetValid = true → statusView n .verifyOffset s = .ok (.num s.verify.offset.toNat)) ∧
      (s.verify.offsetValid = false → statusView n .verifyOffset s = .error (.noValue .verifyOffset)) ∧
      (s.verify.matched = false → statusView n .verifyWinRead s = .ok (.bytes s.verify.winRead) ∧
        statusView n .verifyWinRef s = .ok (.bytes s.verify.winRef)) ∧
      (s.verify.matched = true → statusView n .verifyWinRead s = .error (.noValue .verifyWinRead) ∧
        statusView n .verifyWinRef s = .error (.noValue .verifyWinRef) ∧
        (Inv s → statusView n .verifyOffset s = .error (.noValue .verifyOffset)))) ∧
    (∀ r, r ∈ [ViewReg.verifyMatched, .verifyOffsetValid, .verifyOffset, .verifyWinRead, .verifyWinRef] →
      s.verify.valid = false → statusView n r s = .error (.noValue r))

/-- R41, U7: a read of the status view in EXEC gives some value of the register's kind and width (a number below 2^width, UID_LEN bytes
for ID_UID, at most VERIFY_WINDOW bytes for the windows; PAGE_LEN, which has no storage, 9 bits), and nothing says which: a free
value. That it keeps to the kind and the width is the model's reading (log entry 7); the statement holds whatever the free value is. -/
def Obligations.StatusViewInExecStaysInWidth : Prop :=
  ∀ (s : State) (n : Nat), s.seqState = .exec →
    (∀ r w, (r, w) ∈ [(ViewReg.seqState, 1), (.idMfr, 8), (.idType, 8), (.idCap, 8), (.geomValid, 1), (.geomFamily, 2), (.pageLen, 9),
        (.geomSectorLen, 32), (.geomSubsectorValid, 1), (.geomSubsectorLen, 32), (.geomBusyMethod, 1), (.warnUnknownChip, 1), (.wstate, 2),
        (.lastPoll, 8), (.lastStatus, 3), (.verifyValid, 1), (.verifyMatched, 1), (.verifyOffsetValid, 1), (.verifyOffset, 32), (.cs, 1)] →
      ∃ k, statusView n r s = .ok (.num k) ∧ k < 2 ^ w) ∧
    (∃ b, statusView n .idUid s = .ok (.bytes b) ∧ b.length = s.cfg.uidLen) ∧
    (∀ r, r ∈ [ViewReg.verifyWinRead, .verifyWinRef] → ∃ b, statusView n r s = .ok (.bytes b) ∧ b.length ≤ s.cfg.verifyWindow)

/-- R43, R159: reset, when no Xfer is in progress, gives SEQ_STATE READY, GEOM_VALID 0, WARN_UNKNOWN_CHIP 0, WSTATE UNKNOWN, LAST_STATUS OK,
VERIFY_VALID 0, CS 0, RBUF empty and TRACE empty, drops the request in flight with no response and sends no frame. That the
channels' queues stay and that a reset during an Xfer is refused are log entry 12 and U1. -/
def Obligations.ResetEventClearsBlock : Prop :=
  ∀ s : State,
    (s.cs = false → ∃ t, s.resetEvent = .next t ∧ t.seqState = .ready ∧ t.geom.valid = false ∧ t.warn = false ∧ t.wstate = .unknown ∧
      t.lastStatus = .ok ∧ t.verify.valid = false ∧ t.cs = false ∧ t.rbuf = [] ∧ t.trace = [] ∧ t.poll.valid = false ∧ t.cfg = s.cfg ∧
      t.responses = s.responses ∧ t.hostQ = s.hostQ ∧ t.answers = s.answers) ∧
    (s.cs = true → s.resetEvent = .refused .resetDuringXfer)

/-- R30, R104, R84: the capacity depends on the code alone, for every code; DUMP reads min(CAPACITY_BYTES, 2^24) bytes from 0, and is
legal only while GEOM_VALID = 1. -/
def Obligations.CapacityAndDump : Prop :=
  ∀ s : State,
    (s.geom.valid = true →
      s.capacityBits = some (2 ^ (s.ident.cap.toNat + 3)) ∧ s.capacityBytes = some (2 ^ s.ident.cap.toNat) ∧
      ∃ l : BitVec 32, s.dump = some (.read 0#32 l) ∧ l.toNat = min (2 ^ s.ident.cap.toNat) (2 ^ 24)) ∧
    (s.geom.valid = false → s.capacityBits = none ∧ s.capacityBytes = none ∧ s.dump = none)

/-- R131, R129: the chunks of a read of L ≥ 1 bytes at a, with a + L ≤ 2^24: each at most READ_CHUNK and at least 1 byte long, at strictly
increasing addresses below 2^24, back to back, and L bytes in all. -/
def Obligations.ChunksCoverTheRange : Prop :=
  ∀ (c : Config) (a l : Nat), 1 ≤ c.readChunk → 1 ≤ l → a + l ≤ 2 ^ 24 →
    chunkCount c l = (l + c.readChunk - 1) / c.readChunk ∧
    ((List.range (chunkCount c l)).map (chunkLen c l)).sum = l ∧
    ∀ k, k < chunkCount c l →
      1 ≤ chunkLen c l k ∧ chunkLen c l k ≤ c.readChunk ∧ a + chunkOff c k < 2 ^ 24 ∧ a + chunkOff c k < a + chunkOff c (k + 1) ∧
      (k + 1 < chunkCount c l → chunkLen c l k = c.readChunk) ∧
      chunkOff c k = ((List.range k).map (chunkLen c l)).sum

/-- R125, R126: the pages of an image are its bytes, in order, cut at the page boundaries; each has 1 to 256 bytes, every one but the
last 256, and the last is sent short, never padded. -/
def Obligations.PagesCoverTheImage : Prop :=
  ∀ d : Bytes,
    (List.range (pageCount d.length)).flatMap (fun i => pageSlice d (pageAddr i)) = d ∧
    ∀ i, i < pageCount d.length →
      pageAddr i = i * 256 ∧ 1 ≤ (pageSlice d (pageAddr i)).length ∧
      (i + 1 < pageCount d.length → (pageSlice d (pageAddr i)).length = 256) ∧
      (i + 1 = pageCount d.length → (pageSlice d (pageAddr i)).length = d.length - i * 256)

/-- R127, R51: the erase phase under SECTOR covers every page of the image: each byte of the image lies in exactly one of the sectors
it erases, whose addresses are sector multiples below 2^24. -/
def Obligations.ErasedSectorsCoverTheImage : Prop :=
  ∀ (g : GeomRegs) (l k : Nat), g.sectorLen.toNat ≠ 0 → l ≤ 2 ^ 24 → k < l →
    (∃ i, i < sectorCount l g ∧ eraseAddr g i ≤ k ∧ k < eraseAddr g i + g.sectorLen.toNat ∧
      ∀ j, j < sectorCount l g → eraseAddr g j ≤ k → k < eraseAddr g j + g.sectorLen.toNat → j = i) ∧
    ∀ i, i < sectorCount l g → eraseAddr g i % g.sectorLen.toNat = 0 ∧ eraseAddr g i < 2 ^ 24

/-! ## With the reference chip of spec/20_memory.md R64 to R71 on the bus (informative; the block does not depend on it) -/

/-- R68: SE, SSE and BE erase their unit to ones on an idle chip whose WEL is set, and nothing outside it; otherwise the chip is
unchanged. It rests on log entry 14 (the draws that go with the frame); that the unit is the one containing an unaligned address,
and that there is no effect without WEL on an idle chip, are R68's own additions to the source (N11, N12). -/
def Obligations.ChipErasesUnits : Prop :=
  ∀ (c : Chip) (d : Draws) (a : Nat), a < 2 ^ 24 → c.flash.wf = true →
    let se := (c.serve d ([0xD8#8] ++ le24 a)).2
    let sse := (c.serve d ([0x20#8] ++ le24 a)).2
    let be := (c.serve d [0xC7#8]).2
    (c.busyLeft = 0 ∧ c.wel = true →
      (0 < c.sectorLen → ∀ k, se.flash.read k =
        if k / c.sectorLen = a / c.sectorLen ∧ k < c.size then some 0xFF#8 else c.flash.read k) ∧
      (∀ n, c.subsectorLen = some n → 0 < n → ∀ k, sse.flash.read k =
        if k / n = a / n ∧ k < c.size then some 0xFF#8 else c.flash.read k) ∧
      (∀ k, k < c.size → be.flash.read k = some 0xFF#8) ∧ se.busyLeft = d.busy ∧ be.busyLeft = d.busy) ∧
    (¬ (c.busyLeft = 0 ∧ c.wel = true) → se = c ∧ sse = c ∧ be = c) ∧
    se.flash.wf = true ∧ sse.flash.wf = true ∧ be.flash.wf = true

/-- R69, R70: a page program clears bits and sets none, in the addressed bytes only; a read gives the array's bytes and changes no byte
that has a value. It rests on log entry 14 (the draws that go with the frame; a program frame that crosses a page, which the spec
leaves open, N11, follows R69's formula). -/
def Obligations.ChipProgramsAndReads : Prop :=
  ∀ (c : Chip) (d : Draws) (a : Nat) (p : Bytes) (n : Nat), a < 2 ^ 24 → 1 ≤ p.length → p.length ≤ 256 → 1 ≤ n → c.flash.wf = true →
    let pp := (c.serve d ([0x02#8] ++ le24 a ++ p)).2
    let rd := c.serve d ([0x03#8] ++ le24 a ++ List.replicate n 0x00#8)
    (c.busyLeft = 0 ∧ c.wel = true →
      (∀ k v, k < p.length → a + k < c.size → c.flash.read (a + k) = some v → pp.flash.read (a + k) = some (v &&& p.getD k 0#8)) ∧
      (∀ k, (k < a ∨ a + p.length ≤ k) → pp.flash.read k = c.flash.read k)) ∧
    (¬ (c.busyLeft = 0 ∧ c.wel = true) → pp = c) ∧
    rd.1.length = 4 + n ∧
    (∀ k v, k < n → a + k < c.size → c.flash.read (a + k) = some v → rd.1[4 + k]? = some v) ∧
    (∀ k v, c.flash.read k = some v → rd.2.flash.read k = some v) ∧ pp.flash.wf = true ∧ rd.2.flash.wf = true

/-- R133, R127: with a reference chip of the resolved geometry on the bus, whatever its contents, its state and its draws, a PROGRAM
of an image that fits the chip followed by a VERIFY of the same bytes reports a match, under either erase strategy. It rests on log
entry 14, the model's choices in the reference chip. -/
def Obligations.VerifyAfterProgramMatches : Prop :=
  ∀ (y z : System) (d : Bytes) (ds : List Draws) (r1 r2 : Response),
    Inv y.block → y.block.seqState = .ready → y.block.geom.valid = true → y.chip.flash.wf = true →
    y.chip.sectorLen = y.block.geom.sectorLen.toNat → d.length ≤ 2 ^ 24 → d.length ≤ y.chip.size →
    y.block.hostQ = [⟨0x9#4, 0#32, 0#32, d⟩, ⟨0xA#4, 0#32, 0#32, d⟩] →
    y.run ds = .next z → z.block.responses = y.block.responses ++ [r1, r2] →
    r1 = { status := .ok, fields := .none } ∧ r2 = { status := .ok, fields := .verify none }
end

