-- ==== Sys2Proof/Laws/Chip.lean ====
section
/-! SUPPORT. The reference chip's array: reads after writes, and that every operation keeps the canonical form. -/

namespace Sys2Proof.Machine

/-! ## Reads after writes -/

theorem cellAt_putCell (a b : Nat) (v : Byte) (cs : List Host.Cell) :
    cellAt b (putCell a v cs) = if b = a then some v else cellAt b cs := by
  induction cs with
  | nil => simp [putCell, cellAt, eq_comm]
  | cons c cs ih =>
    obtain ⟨k, w⟩ := c
    simp only [putCell]
    split
    · simp only [cellAt]; split <;> split <;> first | rfl | (split <;> first | rfl | omega)
    · split
      · simp only [cellAt]; split <;> split <;> first | rfl | omega | (split <;> first | rfl | omega)
      · simp only [cellAt, ih]; split <;> split <;> first | rfl | omega

/-- Below the first address of a rising list nothing is listed. -/
theorem cellAt_below {lo a : Nat} {cs : List Host.Cell} (h : risingFrom lo cs = true) (ha : a < lo) :
    cellAt a cs = none := by
  induction cs generalizing lo with
  | nil => rfl
  | cons c cs ih =>
    obtain ⟨k, w⟩ := c
    simp only [risingFrom, Bool.and_eq_true, decide_eq_true_eq] at h
    simp only [cellAt]
    rw [if_neg (by omega)]
    exact ih h.2 (by omega)

theorem cellAt_dropCell {lo : Nat} (a b : Nat) {cs : List Host.Cell} (h : risingFrom lo cs = true) :
    cellAt b (dropCell a cs) = if b = a then none else cellAt b cs := by
  induction cs generalizing lo with
  | nil => simp [dropCell, cellAt]
  | cons c cs ih =>
    obtain ⟨k, w⟩ := c
    simp only [risingFrom, Bool.and_eq_true, decide_eq_true_eq] at h
    simp only [dropCell]
    split
    · next hk =>
      by_cases hb : b = a
      · rw [if_pos hb, cellAt_below h.2 (by omega)]
      · rw [if_neg hb]; simp only [cellAt]; rw [if_neg (by omega)]
    · next hk =>
      simp only [cellAt, ih h.2]
      by_cases hb : b = a
      · subst hb; rw [if_neg hk]; simp
      · simp [hb]

/-- A read after a write: the byte written at its address, the old byte at every other. -/
theorem Flash.read_write (m : Flash) (a b : Nat) (v : Byte) (h : m.wf = true) :
    (m.write a v).read b = if b = a then some v else m.read b := by
  simp only [Flash.wf, Bool.and_eq_true] at h
  have hm : (m.write a v).unlisted = m.unlisted := rfl
  unfold Flash.read
  rw [hm]
  unfold Flash.write
  by_cases hu : m.unlisted = some v
  · simp only [if_pos hu]
    rw [cellAt_dropCell a b h.1]
    by_cases hb : b = a
    · simp only [if_pos hb, Option.none_or, hu]
    · simp only [if_neg hb]
  · simp only [if_neg hu]
    rw [cellAt_putCell]
    by_cases hb : b = a
    · simp only [if_pos hb, Option.some_or]
    · simp only [if_neg hb]

/-! ## The canonical form -/

theorem risingFrom_mono {lo lo' : Nat} {cs : List Host.Cell} (h : risingFrom lo cs = true) (hl : lo' ≤ lo) :
    risingFrom lo' cs = true := by
  cases cs with
  | nil => rfl
  | cons c cs =>
    simp only [risingFrom, Bool.and_eq_true, decide_eq_true_eq] at h ⊢
    exact ⟨by omega, h.2⟩

theorem risingFrom_putCell {lo : Nat} (a : Nat) (v : Byte) {cs : List Host.Cell} (h : risingFrom lo cs = true) (ha : lo ≤ a) :
    risingFrom lo (putCell a v cs) = true := by
  induction cs generalizing lo with
  | nil => simp [putCell, risingFrom, ha]
  | cons c cs ih =>
    obtain ⟨k, w⟩ := c
    simp only [risingFrom, Bool.and_eq_true, decide_eq_true_eq] at h
    simp only [putCell]
    split
    · simp only [risingFrom, Bool.and_eq_true, decide_eq_true_eq]
      exact ⟨ha, by omega, h.2⟩
    · split
      · next hk => subst hk; simp only [risingFrom, Bool.and_eq_true, decide_eq_true_eq]; exact ⟨ha, h.2⟩
      · simp only [risingFrom, Bool.and_eq_true, decide_eq_true_eq]
        exact ⟨h.1, ih h.2 (by omega)⟩

theorem risingFrom_dropCell {lo : Nat} (a : Nat) {cs : List Host.Cell} (h : risingFrom lo cs = true) :
    risingFrom lo (dropCell a cs) = true := by
  induction cs generalizing lo with
  | nil => rfl
  | cons c cs ih =>
    obtain ⟨k, w⟩ := c
    simp only [risingFrom, Bool.and_eq_true, decide_eq_true_eq] at h
    simp only [dropCell]
    split
    · exact risingFrom_mono h.2 (by omega)
    · simp only [risingFrom, Bool.and_eq_true, decide_eq_true_eq]
      exact ⟨h.1, ih h.2⟩

theorem mem_putCell {a : Nat} {v : Byte} {cs : List Host.Cell} {c : Host.Cell} (h : c ∈ putCell a v cs) :
    c = (a, v) ∨ c ∈ cs := by
  induction cs with
  | nil => simpa [putCell] using h
  | cons d cs ih =>
    obtain ⟨k, w⟩ := d
    simp only [putCell] at h
    split at h
    · simpa using h
    · split at h
      · rcases List.mem_cons.mp h with h | h
        · exact .inl h
        · exact .inr (List.mem_cons_of_mem _ h)
      · rcases List.mem_cons.mp h with h | h
        · exact .inr (h ▸ List.mem_cons_self)
        · rcases ih h with h | h
          · exact .inl h
          · exact .inr (List.mem_cons_of_mem _ h)

theorem mem_dropCell {a : Nat} {cs : List Host.Cell} {c : Host.Cell} (h : c ∈ dropCell a cs) : c ∈ cs := by
  induction cs with
  | nil => simp [dropCell] at h
  | cons d cs ih =>
    obtain ⟨k, w⟩ := d
    simp only [dropCell] at h
    split at h
    · exact List.mem_cons_of_mem _ h
    · rcases List.mem_cons.mp h with h | h
      · exact h ▸ List.mem_cons_self
      · exact List.mem_cons_of_mem _ (ih h)

@[simp] theorem Flash.write_unlisted (m : Flash) (a : Nat) (v : Byte) : (m.write a v).unlisted = m.unlisted := rfl

/-- A write keeps the canonical form. -/
theorem Flash.write_wf (m : Flash) (a : Nat) (v : Byte) (h : m.wf = true) : (m.write a v).wf = true := by
  simp only [Flash.wf, Bool.and_eq_true, List.all_eq_true, decide_eq_true_eq] at h ⊢
  rw [Flash.write_unlisted]
  unfold Flash.write
  by_cases hu : m.unlisted = some v
  · simp only [hu, if_true] at h ⊢
    exact ⟨risingFrom_dropCell a h.1, fun c hc => h.2 c (mem_dropCell hc)⟩
  · simp only [hu, if_false]
    refine ⟨risingFrom_putCell a v h.1 (Nat.zero_le _), fun c hc => ?_⟩
    rcases mem_putCell hc with rfl | hc
    · exact hu
    · exact h.2 c hc

/-- So does writing a range. -/
theorem Flash.writeRange_wf (m : Flash) (cap a : Nat) (g : Nat → Byte) (n : Nat) (h : m.wf = true) :
    (m.writeRange cap a g n).wf = true := by
  induction n with
  | zero => exact h
  | succ n ih =>
    simp only [Flash.writeRange]
    split
    · exact Flash.write_wf _ _ _ ih
    · exact ih

theorem Flash.erase_wf (m : Flash) (cap a n : Nat) (h : m.wf = true) : (m.erase cap a n).wf = true :=
  Flash.writeRange_wf m cap a _ n h

theorem Flash.eraseAll_wf (m : Flash) : m.eraseAll.wf = true := by
  simp [Flash.eraseAll, Flash.wf, risingFrom]

/-- A read after a range was written. -/
theorem Flash.read_writeRange (m : Flash) (cap a : Nat) (g : Nat → Byte) (n b : Nat) (h : m.wf = true) :
    (m.writeRange cap a g n).read b =
      if a ≤ b ∧ b < a + n ∧ b < cap then some (g (b - a)) else m.read b := by
  induction n with
  | zero =>
    rw [if_neg (by omega)]
    rfl
  | succ n ih =>
    simp only [Flash.writeRange]
    split
    · next hc =>
      rw [Flash.read_write _ _ _ _ (Flash.writeRange_wf m cap a g n h), ih]
      by_cases hb : b = a + n
      · subst hb
        rw [if_pos rfl, if_pos (by omega)]
        simp
      · rw [if_neg hb]
        by_cases hr : a ≤ b ∧ b < a + n ∧ b < cap
        · rw [if_pos hr, if_pos (by omega)]
        · rw [if_neg hr, if_neg (by omega)]
    · next hc =>
      rw [ih]
      by_cases hr : a ≤ b ∧ b < a + n ∧ b < cap
      · rw [if_pos hr, if_pos (by omega)]
      · rw [if_neg hr, if_neg (by omega)]

/-- The drawn effect of a subsector erase without subsectors keeps the canonical form. -/
theorem Chip.strayed_wf (c : Chip) (d : Draws) (h : c.flash.wf = true) : (c.strayed d).wf = true := by
  unfold Chip.strayed
  generalize d.stray = l
  generalize c.flash = m at h ⊢
  induction l generalizing m with
  | nil => exact h
  | cons x l ih =>
    simp only [List.foldl_cons]
    split
    · exact ih _ (m.write_wf x.1 x.2 h)
    · exact ih _ h

/-- The chip at first: canonical, and no byte has a value (R64). -/
theorem Chip.initial_wf (mfr type cap : Byte) (uid : Bytes) (n : Nat) (m : Option Nat) :
    (Chip.initial mfr type cap uid n m).flash.wf = true := rfl

@[simp] theorem Chip.initial_read (mfr type cap : Byte) (uid : Bytes) (n : Nat) (m : Option Nat) (a : Nat) :
    (Chip.initial mfr type cap uid n m).flash.read a = none := rfl

end Sys2Proof.Machine
end

