-- ==== Sys2Proof/Laws/Decode.lean ====
section
/-! SUPPORT. Small facts about the codec. -/

namespace Sys2Proof

@[simp] theorem fill_length (n : Nat) : (fill n).length = n := by simp [fill]

@[simp] theorem le24_length (a : Nat) : (le24 a).length = 3 := rfl

/-- A frame without an address: opcode, then payload. -/
@[simp] theorem codecEncode_none (op : Byte) (p : Bytes) : codecEncode op none p = some (op :: p) := rfl

/-- A frame with an address below 2^24. -/
theorem codecEncode_some {a : Nat} (op : Byte) (p : Bytes) (h : a < addrLimit) :
    codecEncode op (some a) p = some (op :: (le24 a ++ p)) := by
  simp only [codecEncode, if_pos h]

/-- An address of 2^24 or more builds no frame. -/
theorem codecEncode_large {a : Nat} (op : Byte) (p : Bytes) (h : addrLimit ≤ a) :
    codecEncode op (some a) p = none := by
  simp only [codecEncode, if_neg (Nat.not_lt.mpr h)]

@[simp] theorem codecDecode_length (raw : Bytes) (k : Nat) : (codecDecode raw k).length = raw.length - k := by
  simp [codecDecode]

end Sys2Proof
end

