-- ==== Sys2Proof/Laws/State.lean ====
section
/-! SUPPORT. One lemma for each field of State under each update of Machine/Ops.lean and Machine/HostView.lean: no proof unfolds an
update. -/

namespace Sys2Proof.Machine

variable (s : State)

/-! ### goto -/

@[simp] theorem State.goto_cfg (l : Line) (p : Phase) : (s.goto l p).cfg = s.cfg := rfl
@[simp] theorem State.goto_seqState (l : Line) (p : Phase) : (s.goto l p).seqState = s.seqState := rfl
@[simp] theorem State.goto_req (l : Line) (p : Phase) : (s.goto l p).req = s.req := rfl
@[simp] theorem State.goto_pos (l : Line) (p : Phase) : (s.goto l p).pos = { line := l, phase := p } := rfl
@[simp] theorem State.goto_work (l : Line) (p : Phase) : (s.goto l p).work = s.work := rfl
@[simp] theorem State.goto_ident (l : Line) (p : Phase) : (s.goto l p).ident = s.ident := rfl
@[simp] theorem State.goto_geom (l : Line) (p : Phase) : (s.goto l p).geom = s.geom := rfl
@[simp] theorem State.goto_warn (l : Line) (p : Phase) : (s.goto l p).warn = s.warn := rfl
@[simp] theorem State.goto_wstate (l : Line) (p : Phase) : (s.goto l p).wstate = s.wstate := rfl
@[simp] theorem State.goto_poll (l : Line) (p : Phase) : (s.goto l p).poll = s.poll := rfl
@[simp] theorem State.goto_lastStatus (l : Line) (p : Phase) : (s.goto l p).lastStatus = s.lastStatus := rfl
@[simp] theorem State.goto_verify (l : Line) (p : Phase) : (s.goto l p).verify = s.verify := rfl
@[simp] theorem State.goto_cs (l : Line) (p : Phase) : (s.goto l p).cs = s.cs := rfl
@[simp] theorem State.goto_rbuf (l : Line) (p : Phase) : (s.goto l p).rbuf = s.rbuf := rfl
@[simp] theorem State.goto_trace (l : Line) (p : Phase) : (s.goto l p).trace = s.trace := rfl
@[simp] theorem State.goto_hostQ (l : Line) (p : Phase) : (s.goto l p).hostQ = s.hostQ := rfl
@[simp] theorem State.goto_answers (l : Line) (p : Phase) : (s.goto l p).answers = s.answers := rfl
@[simp] theorem State.goto_responses (l : Line) (p : Phase) : (s.goto l p).responses = s.responses := rfl

/-! ### setLoop -/

@[simp] theorem State.setLoop_cfg (i n a : Nat) : (s.setLoop i n a).cfg = s.cfg := rfl
@[simp] theorem State.setLoop_seqState (i n a : Nat) : (s.setLoop i n a).seqState = s.seqState := rfl
@[simp] theorem State.setLoop_req (i n a : Nat) : (s.setLoop i n a).req = s.req := rfl
@[simp] theorem State.setLoop_pos (i n a : Nat) : (s.setLoop i n a).pos = s.pos := rfl
@[simp] theorem State.setLoop_work (i n a : Nat) : (s.setLoop i n a).work = { s.work with i := i, n := n, a := a } := rfl
@[simp] theorem State.setLoop_ident (i n a : Nat) : (s.setLoop i n a).ident = s.ident := rfl
@[simp] theorem State.setLoop_geom (i n a : Nat) : (s.setLoop i n a).geom = s.geom := rfl
@[simp] theorem State.setLoop_warn (i n a : Nat) : (s.setLoop i n a).warn = s.warn := rfl
@[simp] theorem State.setLoop_wstate (i n a : Nat) : (s.setLoop i n a).wstate = s.wstate := rfl
@[simp] theorem State.setLoop_poll (i n a : Nat) : (s.setLoop i n a).poll = s.poll := rfl
@[simp] theorem State.setLoop_lastStatus (i n a : Nat) : (s.setLoop i n a).lastStatus = s.lastStatus := rfl
@[simp] theorem State.setLoop_verify (i n a : Nat) : (s.setLoop i n a).verify = s.verify := rfl
@[simp] theorem State.setLoop_cs (i n a : Nat) : (s.setLoop i n a).cs = s.cs := rfl
@[simp] theorem State.setLoop_rbuf (i n a : Nat) : (s.setLoop i n a).rbuf = s.rbuf := rfl
@[simp] theorem State.setLoop_trace (i n a : Nat) : (s.setLoop i n a).trace = s.trace := rfl
@[simp] theorem State.setLoop_hostQ (i n a : Nat) : (s.setLoop i n a).hostQ = s.hostQ := rfl
@[simp] theorem State.setLoop_answers (i n a : Nat) : (s.setLoop i n a).answers = s.answers := rfl
@[simp] theorem State.setLoop_responses (i n a : Nat) : (s.setLoop i n a).responses = s.responses := rfl

/-! ### setResp -/

@[simp] theorem State.setResp_cfg (r : Bytes) : (s.setResp r).cfg = s.cfg := rfl
@[simp] theorem State.setResp_seqState (r : Bytes) : (s.setResp r).seqState = s.seqState := rfl
@[simp] theorem State.setResp_req (r : Bytes) : (s.setResp r).req = s.req := rfl
@[simp] theorem State.setResp_pos (r : Bytes) : (s.setResp r).pos = s.pos := rfl
@[simp] theorem State.setResp_work (r : Bytes) : (s.setResp r).work = { s.work with resp := r } := rfl
@[simp] theorem State.setResp_ident (r : Bytes) : (s.setResp r).ident = s.ident := rfl
@[simp] theorem State.setResp_geom (r : Bytes) : (s.setResp r).geom = s.geom := rfl
@[simp] theorem State.setResp_warn (r : Bytes) : (s.setResp r).warn = s.warn := rfl
@[simp] theorem State.setResp_wstate (r : Bytes) : (s.setResp r).wstate = s.wstate := rfl
@[simp] theorem State.setResp_poll (r : Bytes) : (s.setResp r).poll = s.poll := rfl
@[simp] theorem State.setResp_lastStatus (r : Bytes) : (s.setResp r).lastStatus = s.lastStatus := rfl
@[simp] theorem State.setResp_verify (r : Bytes) : (s.setResp r).verify = s.verify := rfl
@[simp] theorem State.setResp_cs (r : Bytes) : (s.setResp r).cs = s.cs := rfl
@[simp] theorem State.setResp_rbuf (r : Bytes) : (s.setResp r).rbuf = s.rbuf := rfl
@[simp] theorem State.setResp_trace (r : Bytes) : (s.setResp r).trace = s.trace := rfl
@[simp] theorem State.setResp_hostQ (r : Bytes) : (s.setResp r).hostQ = s.hostQ := rfl
@[simp] theorem State.setResp_answers (r : Bytes) : (s.setResp r).answers = s.answers := rfl
@[simp] theorem State.setResp_responses (r : Bytes) : (s.setResp r).responses = s.responses := rfl

/-! ### setWState -/

@[simp] theorem State.setWState_cfg (w : WState) : (s.setWState w).cfg = s.cfg := rfl
@[simp] theorem State.setWState_seqState (w : WState) : (s.setWState w).seqState = s.seqState := rfl
@[simp] theorem State.setWState_req (w : WState) : (s.setWState w).req = s.req := rfl
@[simp] theorem State.setWState_pos (w : WState) : (s.setWState w).pos = s.pos := rfl
@[simp] theorem State.setWState_work (w : WState) : (s.setWState w).work = s.work := rfl
@[simp] theorem State.setWState_ident (w : WState) : (s.setWState w).ident = s.ident := rfl
@[simp] theorem State.setWState_geom (w : WState) : (s.setWState w).geom = s.geom := rfl
@[simp] theorem State.setWState_warn (w : WState) : (s.setWState w).warn = s.warn := rfl
@[simp] theorem State.setWState_wstate (w : WState) : (s.setWState w).wstate = w := rfl
@[simp] theorem State.setWState_poll (w : WState) : (s.setWState w).poll = s.poll := rfl
@[simp] theorem State.setWState_lastStatus (w : WState) : (s.setWState w).lastStatus = s.lastStatus := rfl
@[simp] theorem State.setWState_verify (w : WState) : (s.setWState w).verify = s.verify := rfl
@[simp] theorem State.setWState_cs (w : WState) : (s.setWState w).cs = s.cs := rfl
@[simp] theorem State.setWState_rbuf (w : WState) : (s.setWState w).rbuf = s.rbuf := rfl
@[simp] theorem State.setWState_trace (w : WState) : (s.setWState w).trace = s.trace := rfl
@[simp] theorem State.setWState_hostQ (w : WState) : (s.setWState w).hostQ = s.hostQ := rfl
@[simp] theorem State.setWState_answers (w : WState) : (s.setWState w).answers = s.answers := rfl
@[simp] theorem State.setWState_responses (w : WState) : (s.setWState w).responses = s.responses := rfl

/-! ### setPoll -/

@[simp] theorem State.setPoll_cfg (b : Byte) (w : WState) : (s.setPoll b w).cfg = s.cfg := rfl
@[simp] theorem State.setPoll_seqState (b : Byte) (w : WState) : (s.setPoll b w).seqState = s.seqState := rfl
@[simp] theorem State.setPoll_req (b : Byte) (w : WState) : (s.setPoll b w).req = s.req := rfl
@[simp] theorem State.setPoll_pos (b : Byte) (w : WState) : (s.setPoll b w).pos = s.pos := rfl
@[simp] theorem State.setPoll_work (b : Byte) (w : WState) : (s.setPoll b w).work = { s.work with b := b } := rfl
@[simp] theorem State.setPoll_ident (b : Byte) (w : WState) : (s.setPoll b w).ident = s.ident := rfl
@[simp] theorem State.setPoll_geom (b : Byte) (w : WState) : (s.setPoll b w).geom = s.geom := rfl
@[simp] theorem State.setPoll_warn (b : Byte) (w : WState) : (s.setPoll b w).warn = s.warn := rfl
@[simp] theorem State.setPoll_wstate (b : Byte) (w : WState) : (s.setPoll b w).wstate = w := rfl
@[simp] theorem State.setPoll_poll (b : Byte) (w : WState) : (s.setPoll b w).poll = { value := b, valid := true } := rfl
@[simp] theorem State.setPoll_lastStatus (b : Byte) (w : WState) : (s.setPoll b w).lastStatus = s.lastStatus := rfl
@[simp] theorem State.setPoll_verify (b : Byte) (w : WState) : (s.setPoll b w).verify = s.verify := rfl
@[simp] theorem State.setPoll_cs (b : Byte) (w : WState) : (s.setPoll b w).cs = s.cs := rfl
@[simp] theorem State.setPoll_rbuf (b : Byte) (w : WState) : (s.setPoll b w).rbuf = s.rbuf := rfl
@[simp] theorem State.setPoll_trace (b : Byte) (w : WState) : (s.setPoll b w).trace = s.trace := rfl
@[simp] theorem State.setPoll_hostQ (b : Byte) (w : WState) : (s.setPoll b w).hostQ = s.hostQ := rfl
@[simp] theorem State.setPoll_answers (b : Byte) (w : WState) : (s.setPoll b w).answers = s.answers := rfl
@[simp] theorem State.setPoll_responses (b : Byte) (w : WState) : (s.setPoll b w).responses = s.responses := rfl

/-! ### assertCs -/

@[simp] theorem State.assertCs_cfg : (s.assertCs).cfg = s.cfg := rfl
@[simp] theorem State.assertCs_seqState : (s.assertCs).seqState = s.seqState := rfl
@[simp] theorem State.assertCs_req : (s.assertCs).req = s.req := rfl
@[simp] theorem State.assertCs_pos : (s.assertCs).pos = s.pos := rfl
@[simp] theorem State.assertCs_work : (s.assertCs).work = s.work := rfl
@[simp] theorem State.assertCs_ident : (s.assertCs).ident = s.ident := rfl
@[simp] theorem State.assertCs_geom : (s.assertCs).geom = s.geom := rfl
@[simp] theorem State.assertCs_warn : (s.assertCs).warn = s.warn := rfl
@[simp] theorem State.assertCs_wstate : (s.assertCs).wstate = s.wstate := rfl
@[simp] theorem State.assertCs_poll : (s.assertCs).poll = s.poll := rfl
@[simp] theorem State.assertCs_lastStatus : (s.assertCs).lastStatus = s.lastStatus := rfl
@[simp] theorem State.assertCs_verify : (s.assertCs).verify = s.verify := rfl
@[simp] theorem State.assertCs_cs : (s.assertCs).cs = true := rfl
@[simp] theorem State.assertCs_rbuf : (s.assertCs).rbuf = s.rbuf := rfl
@[simp] theorem State.assertCs_trace : (s.assertCs).trace = s.trace := rfl
@[simp] theorem State.assertCs_hostQ : (s.assertCs).hostQ = s.hostQ := rfl
@[simp] theorem State.assertCs_answers : (s.assertCs).answers = s.answers := rfl
@[simp] theorem State.assertCs_responses : (s.assertCs).responses = s.responses := rfl

/-! ### endXfer -/

@[simp] theorem State.endXfer_cfg (f : Bytes) (a : Answer) (rest : List Answer) : (s.endXfer f a rest).cfg = s.cfg := rfl
@[simp] theorem State.endXfer_seqState (f : Bytes) (a : Answer) (rest : List Answer) : (s.endXfer f a rest).seqState = s.seqState := rfl
@[simp] theorem State.endXfer_req (f : Bytes) (a : Answer) (rest : List Answer) : (s.endXfer f a rest).req = s.req := rfl
@[simp] theorem State.endXfer_pos (f : Bytes) (a : Answer) (rest : List Answer) : (s.endXfer f a rest).pos = s.pos := rfl
@[simp] theorem State.endXfer_work (f : Bytes) (a : Answer) (rest : List Answer) : (s.endXfer f a rest).work = s.work := rfl
@[simp] theorem State.endXfer_ident (f : Bytes) (a : Answer) (rest : List Answer) : (s.endXfer f a rest).ident = s.ident := rfl
@[simp] theorem State.endXfer_geom (f : Bytes) (a : Answer) (rest : List Answer) : (s.endXfer f a rest).geom = s.geom := rfl
@[simp] theorem State.endXfer_warn (f : Bytes) (a : Answer) (rest : List Answer) : (s.endXfer f a rest).warn = s.warn := rfl
@[simp] theorem State.endXfer_wstate (f : Bytes) (a : Answer) (rest : List Answer) : (s.endXfer f a rest).wstate = s.wstate := rfl
@[simp] theorem State.endXfer_poll (f : Bytes) (a : Answer) (rest : List Answer) : (s.endXfer f a rest).poll = s.poll := rfl
@[simp] theorem State.endXfer_lastStatus (f : Bytes) (a : Answer) (rest : List Answer) : (s.endXfer f a rest).lastStatus = s.lastStatus := rfl
@[simp] theorem State.endXfer_verify (f : Bytes) (a : Answer) (rest : List Answer) : (s.endXfer f a rest).verify = s.verify := rfl
@[simp] theorem State.endXfer_cs (f : Bytes) (a : Answer) (rest : List Answer) : (s.endXfer f a rest).cs = false := rfl
@[simp] theorem State.endXfer_rbuf (f : Bytes) (a : Answer) (rest : List Answer) : (s.endXfer f a rest).rbuf = s.rbuf := rfl
@[simp] theorem State.endXfer_trace (f : Bytes) (a : Answer) (rest : List Answer) : (s.endXfer f a rest).trace = s.trace ++ [{ frame := f, answer := a }] := rfl
@[simp] theorem State.endXfer_hostQ (f : Bytes) (a : Answer) (rest : List Answer) : (s.endXfer f a rest).hostQ = s.hostQ := rfl
@[simp] theorem State.endXfer_answers (f : Bytes) (a : Answer) (rest : List Answer) : (s.endXfer f a rest).answers = rest := rfl
@[simp] theorem State.endXfer_responses (f : Bytes) (a : Answer) (rest : List Answer) : (s.endXfer f a rest).responses = s.responses := rfl

/-! ### setIdent -/

@[simp] theorem State.setIdent_cfg (i : IdRegs) (g : GeomRegs) (w : Bool) : (s.setIdent i g w).cfg = s.cfg := rfl
@[simp] theorem State.setIdent_seqState (i : IdRegs) (g : GeomRegs) (w : Bool) : (s.setIdent i g w).seqState = s.seqState := rfl
@[simp] theorem State.setIdent_req (i : IdRegs) (g : GeomRegs) (w : Bool) : (s.setIdent i g w).req = s.req := rfl
@[simp] theorem State.setIdent_pos (i : IdRegs) (g : GeomRegs) (w : Bool) : (s.setIdent i g w).pos = s.pos := rfl
@[simp] theorem State.setIdent_work (i : IdRegs) (g : GeomRegs) (w : Bool) : (s.setIdent i g w).work = s.work := rfl
@[simp] theorem State.setIdent_ident (i : IdRegs) (g : GeomRegs) (w : Bool) : (s.setIdent i g w).ident = i := rfl
@[simp] theorem State.setIdent_geom (i : IdRegs) (g : GeomRegs) (w : Bool) : (s.setIdent i g w).geom = g := rfl
@[simp] theorem State.setIdent_warn (i : IdRegs) (g : GeomRegs) (w : Bool) : (s.setIdent i g w).warn = w := rfl
@[simp] theorem State.setIdent_wstate (i : IdRegs) (g : GeomRegs) (w : Bool) : (s.setIdent i g w).wstate = s.wstate := rfl
@[simp] theorem State.setIdent_poll (i : IdRegs) (g : GeomRegs) (w : Bool) : (s.setIdent i g w).poll = s.poll := rfl
@[simp] theorem State.setIdent_lastStatus (i : IdRegs) (g : GeomRegs) (w : Bool) : (s.setIdent i g w).lastStatus = s.lastStatus := rfl
@[simp] theorem State.setIdent_verify (i : IdRegs) (g : GeomRegs) (w : Bool) : (s.setIdent i g w).verify = s.verify := rfl
@[simp] theorem State.setIdent_cs (i : IdRegs) (g : GeomRegs) (w : Bool) : (s.setIdent i g w).cs = s.cs := rfl
@[simp] theorem State.setIdent_rbuf (i : IdRegs) (g : GeomRegs) (w : Bool) : (s.setIdent i g w).rbuf = s.rbuf := rfl
@[simp] theorem State.setIdent_trace (i : IdRegs) (g : GeomRegs) (w : Bool) : (s.setIdent i g w).trace = s.trace := rfl
@[simp] theorem State.setIdent_hostQ (i : IdRegs) (g : GeomRegs) (w : Bool) : (s.setIdent i g w).hostQ = s.hostQ := rfl
@[simp] theorem State.setIdent_answers (i : IdRegs) (g : GeomRegs) (w : Bool) : (s.setIdent i g w).answers = s.answers := rfl
@[simp] theorem State.setIdent_responses (i : IdRegs) (g : GeomRegs) (w : Bool) : (s.setIdent i g w).responses = s.responses := rfl

/-! ### setRbuf -/

@[simp] theorem State.setRbuf_cfg (d : Bytes) : (s.setRbuf d).cfg = s.cfg := rfl
@[simp] theorem State.setRbuf_seqState (d : Bytes) : (s.setRbuf d).seqState = s.seqState := rfl
@[simp] theorem State.setRbuf_req (d : Bytes) : (s.setRbuf d).req = s.req := rfl
@[simp] theorem State.setRbuf_pos (d : Bytes) : (s.setRbuf d).pos = s.pos := rfl
@[simp] theorem State.setRbuf_work (d : Bytes) : (s.setRbuf d).work = s.work := rfl
@[simp] theorem State.setRbuf_ident (d : Bytes) : (s.setRbuf d).ident = s.ident := rfl
@[simp] theorem State.setRbuf_geom (d : Bytes) : (s.setRbuf d).geom = s.geom := rfl
@[simp] theorem State.setRbuf_warn (d : Bytes) : (s.setRbuf d).warn = s.warn := rfl
@[simp] theorem State.setRbuf_wstate (d : Bytes) : (s.setRbuf d).wstate = s.wstate := rfl
@[simp] theorem State.setRbuf_poll (d : Bytes) : (s.setRbuf d).poll = s.poll := rfl
@[simp] theorem State.setRbuf_lastStatus (d : Bytes) : (s.setRbuf d).lastStatus = s.lastStatus := rfl
@[simp] theorem State.setRbuf_verify (d : Bytes) : (s.setRbuf d).verify = s.verify := rfl
@[simp] theorem State.setRbuf_cs (d : Bytes) : (s.setRbuf d).cs = s.cs := rfl
@[simp] theorem State.setRbuf_rbuf (d : Bytes) : (s.setRbuf d).rbuf = d := rfl
@[simp] theorem State.setRbuf_trace (d : Bytes) : (s.setRbuf d).trace = s.trace := rfl
@[simp] theorem State.setRbuf_hostQ (d : Bytes) : (s.setRbuf d).hostQ = s.hostQ := rfl
@[simp] theorem State.setRbuf_answers (d : Bytes) : (s.setRbuf d).answers = s.answers := rfl
@[simp] theorem State.setRbuf_responses (d : Bytes) : (s.setRbuf d).responses = s.responses := rfl

/-! ### setVerify -/

@[simp] theorem State.setVerify_cfg (v : VerifyRegs) : (s.setVerify v).cfg = s.cfg := rfl
@[simp] theorem State.setVerify_seqState (v : VerifyRegs) : (s.setVerify v).seqState = s.seqState := rfl
@[simp] theorem State.setVerify_req (v : VerifyRegs) : (s.setVerify v).req = s.req := rfl
@[simp] theorem State.setVerify_pos (v : VerifyRegs) : (s.setVerify v).pos = s.pos := rfl
@[simp] theorem State.setVerify_work (v : VerifyRegs) : (s.setVerify v).work = s.work := rfl
@[simp] theorem State.setVerify_ident (v : VerifyRegs) : (s.setVerify v).ident = s.ident := rfl
@[simp] theorem State.setVerify_geom (v : VerifyRegs) : (s.setVerify v).geom = s.geom := rfl
@[simp] theorem State.setVerify_warn (v : VerifyRegs) : (s.setVerify v).warn = s.warn := rfl
@[simp] theorem State.setVerify_wstate (v : VerifyRegs) : (s.setVerify v).wstate = s.wstate := rfl
@[simp] theorem State.setVerify_poll (v : VerifyRegs) : (s.setVerify v).poll = s.poll := rfl
@[simp] theorem State.setVerify_lastStatus (v : VerifyRegs) : (s.setVerify v).lastStatus = s.lastStatus := rfl
@[simp] theorem State.setVerify_verify (v : VerifyRegs) : (s.setVerify v).verify = v := rfl
@[simp] theorem State.setVerify_cs (v : VerifyRegs) : (s.setVerify v).cs = s.cs := rfl
@[simp] theorem State.setVerify_rbuf (v : VerifyRegs) : (s.setVerify v).rbuf = s.rbuf := rfl
@[simp] theorem State.setVerify_trace (v : VerifyRegs) : (s.setVerify v).trace = s.trace := rfl
@[simp] theorem State.setVerify_hostQ (v : VerifyRegs) : (s.setVerify v).hostQ = s.hostQ := rfl
@[simp] theorem State.setVerify_answers (v : VerifyRegs) : (s.setVerify v).answers = s.answers := rfl
@[simp] theorem State.setVerify_responses (v : VerifyRegs) : (s.setVerify v).responses = s.responses := rfl

/-! ### finish -/

@[simp] theorem State.finish_cfg (st : Status) (f : Fields) : (s.finish st f).cfg = s.cfg := rfl
@[simp] theorem State.finish_seqState (st : Status) (f : Fields) : (s.finish st f).seqState = .ready := rfl
@[simp] theorem State.finish_req (st : Status) (f : Fields) : (s.finish st f).req = s.req := rfl
@[simp] theorem State.finish_pos (st : Status) (f : Fields) : (s.finish st f).pos = s.pos := rfl
@[simp] theorem State.finish_work (st : Status) (f : Fields) : (s.finish st f).work = s.work := rfl
@[simp] theorem State.finish_ident (st : Status) (f : Fields) : (s.finish st f).ident = s.ident := rfl
@[simp] theorem State.finish_geom (st : Status) (f : Fields) : (s.finish st f).geom = s.geom := rfl
@[simp] theorem State.finish_warn (st : Status) (f : Fields) : (s.finish st f).warn = s.warn := rfl
@[simp] theorem State.finish_wstate (st : Status) (f : Fields) : (s.finish st f).wstate = s.wstate := rfl
@[simp] theorem State.finish_poll (st : Status) (f : Fields) : (s.finish st f).poll = s.poll := rfl
@[simp] theorem State.finish_lastStatus (st : Status) (f : Fields) : (s.finish st f).lastStatus = st := rfl
@[simp] theorem State.finish_verify (st : Status) (f : Fields) : (s.finish st f).verify = s.verify := rfl
@[simp] theorem State.finish_cs (st : Status) (f : Fields) : (s.finish st f).cs = s.cs := rfl
@[simp] theorem State.finish_rbuf (st : Status) (f : Fields) : (s.finish st f).rbuf = s.rbuf := rfl
@[simp] theorem State.finish_trace (st : Status) (f : Fields) : (s.finish st f).trace = s.trace := rfl
@[simp] theorem State.finish_hostQ (st : Status) (f : Fields) : (s.finish st f).hostQ = s.hostQ := rfl
@[simp] theorem State.finish_answers (st : Status) (f : Fields) : (s.finish st f).answers = s.answers := rfl
@[simp] theorem State.finish_responses (st : Status) (f : Fields) : (s.finish st f).responses = s.responses ++ [{ status := st, fields := f }] := rfl

/-! ### accept -/

@[simp] theorem State.accept_cfg (r : Request) (rest : List Request) : (s.accept r rest).cfg = s.cfg := rfl
@[simp] theorem State.accept_seqState (r : Request) (rest : List Request) : (s.accept r rest).seqState = .exec := rfl
@[simp] theorem State.accept_req (r : Request) (rest : List Request) : (s.accept r rest).req = r := rfl
@[simp] theorem State.accept_pos (r : Request) (rest : List Request) : (s.accept r rest).pos = { line := .entry, phase := .single } := rfl
@[simp] theorem State.accept_work (r : Request) (rest : List Request) : (s.accept r rest).work = s.work := rfl
@[simp] theorem State.accept_ident (r : Request) (rest : List Request) : (s.accept r rest).ident = s.ident := rfl
@[simp] theorem State.accept_geom (r : Request) (rest : List Request) : (s.accept r rest).geom = s.geom := rfl
@[simp] theorem State.accept_warn (r : Request) (rest : List Request) : (s.accept r rest).warn = s.warn := rfl
@[simp] theorem State.accept_wstate (r : Request) (rest : List Request) : (s.accept r rest).wstate = s.wstate := rfl
@[simp] theorem State.accept_poll (r : Request) (rest : List Request) : (s.accept r rest).poll = s.poll := rfl
@[simp] theorem State.accept_lastStatus (r : Request) (rest : List Request) : (s.accept r rest).lastStatus = s.lastStatus := rfl
@[simp] theorem State.accept_verify (r : Request) (rest : List Request) : (s.accept r rest).verify = s.verify := rfl
@[simp] theorem State.accept_cs (r : Request) (rest : List Request) : (s.accept r rest).cs = s.cs := rfl
@[simp] theorem State.accept_rbuf (r : Request) (rest : List Request) : (s.accept r rest).rbuf = s.rbuf := rfl
@[simp] theorem State.accept_trace (r : Request) (rest : List Request) : (s.accept r rest).trace = s.trace := rfl
@[simp] theorem State.accept_hostQ (r : Request) (rest : List Request) : (s.accept r rest).hostQ = rest := rfl
@[simp] theorem State.accept_answers (r : Request) (rest : List Request) : (s.accept r rest).answers = s.answers := rfl
@[simp] theorem State.accept_responses (r : Request) (rest : List Request) : (s.accept r rest).responses = s.responses := rfl

/-! ### offer -/

@[simp] theorem State.offer_cfg (r : Request) : (s.offer r).cfg = s.cfg := rfl
@[simp] theorem State.offer_seqState (r : Request) : (s.offer r).seqState = s.seqState := rfl
@[simp] theorem State.offer_req (r : Request) : (s.offer r).req = s.req := rfl
@[simp] theorem State.offer_pos (r : Request) : (s.offer r).pos = s.pos := rfl
@[simp] theorem State.offer_work (r : Request) : (s.offer r).work = s.work := rfl
@[simp] theorem State.offer_ident (r : Request) : (s.offer r).ident = s.ident := rfl
@[simp] theorem State.offer_geom (r : Request) : (s.offer r).geom = s.geom := rfl
@[simp] theorem State.offer_warn (r : Request) : (s.offer r).warn = s.warn := rfl
@[simp] theorem State.offer_wstate (r : Request) : (s.offer r).wstate = s.wstate := rfl
@[simp] theorem State.offer_poll (r : Request) : (s.offer r).poll = s.poll := rfl
@[simp] theorem State.offer_lastStatus (r : Request) : (s.offer r).lastStatus = s.lastStatus := rfl
@[simp] theorem State.offer_verify (r : Request) : (s.offer r).verify = s.verify := rfl
@[simp] theorem State.offer_cs (r : Request) : (s.offer r).cs = s.cs := rfl
@[simp] theorem State.offer_rbuf (r : Request) : (s.offer r).rbuf = s.rbuf := rfl
@[simp] theorem State.offer_trace (r : Request) : (s.offer r).trace = s.trace := rfl
@[simp] theorem State.offer_hostQ (r : Request) : (s.offer r).hostQ = if r.fits then s.hostQ ++ [r] else s.hostQ := rfl
@[simp] theorem State.offer_answers (r : Request) : (s.offer r).answers = s.answers := rfl
@[simp] theorem State.offer_responses (r : Request) : (s.offer r).responses = s.responses := rfl

/-! ### supply -/

@[simp] theorem State.supply_cfg (a : Answer) : (s.supply a).cfg = s.cfg := rfl
@[simp] theorem State.supply_seqState (a : Answer) : (s.supply a).seqState = s.seqState := rfl
@[simp] theorem State.supply_req (a : Answer) : (s.supply a).req = s.req := rfl
@[simp] theorem State.supply_pos (a : Answer) : (s.supply a).pos = s.pos := rfl
@[simp] theorem State.supply_work (a : Answer) : (s.supply a).work = s.work := rfl
@[simp] theorem State.supply_ident (a : Answer) : (s.supply a).ident = s.ident := rfl
@[simp] theorem State.supply_geom (a : Answer) : (s.supply a).geom = s.geom := rfl
@[simp] theorem State.supply_warn (a : Answer) : (s.supply a).warn = s.warn := rfl
@[simp] theorem State.supply_wstate (a : Answer) : (s.supply a).wstate = s.wstate := rfl
@[simp] theorem State.supply_poll (a : Answer) : (s.supply a).poll = s.poll := rfl
@[simp] theorem State.supply_lastStatus (a : Answer) : (s.supply a).lastStatus = s.lastStatus := rfl
@[simp] theorem State.supply_verify (a : Answer) : (s.supply a).verify = s.verify := rfl
@[simp] theorem State.supply_cs (a : Answer) : (s.supply a).cs = s.cs := rfl
@[simp] theorem State.supply_rbuf (a : Answer) : (s.supply a).rbuf = s.rbuf := rfl
@[simp] theorem State.supply_trace (a : Answer) : (s.supply a).trace = s.trace := rfl
@[simp] theorem State.supply_hostQ (a : Answer) : (s.supply a).hostQ = s.hostQ := rfl
@[simp] theorem State.supply_answers (a : Answer) : (s.supply a).answers = s.answers ++ [a] := rfl
@[simp] theorem State.supply_responses (a : Answer) : (s.supply a).responses = s.responses := rfl

end Sys2Proof.Machine
end

