-- ==== Sys2Proof/Laws/Ops.lean ====
section
/-! SUPPORT. What each shared operation of Machine/Ops.lean can do, said once. -/

namespace Sys2Proof.Machine

/-! ## Ending a request -/

/-- The error entry's record, for every error kind (spec/60_exceptions.md R147). -/
theorem errorEntry_eq (e : ErrKind) (s : State) :
    errorEntry e s =
      { s with
        wstate := if e = .transportFailure then .unknown else s.wstate
        lastStatus := e.status
        responses := s.responses ++ [{ status := e.status, fields := .none }]
        seqState := .ready } := by
  cases e <;> rfl

@[simp] theorem respond_eq (f : Fields) (s : State) : respond f s = s.finish .ok f := rfl

@[simp] theorem raise_eq (e : ErrKind) (s : State) : raise e s = .next (errorEntry e s) := rfl

@[simp] theorem delay_eq (n : Nat) (s : State) : delay n s = s := rfl

/-! ## Xfer -/

/-- An Xfer with no answer yet waits. -/
theorem xfer_waiting {s : State} (f : Bytes) (h : s.answers = []) : xfer f s = .waiting s.assertCs := by
  simp [xfer, h]

/-- An Xfer whose answer has the frame's length returns it. -/
theorem xfer_answered {s : State} {f r : Bytes} {rest : List Answer} (h : s.answers = .bytes r :: rest)
    (hl : r.length = f.length) : xfer f s = .answered r (s.assertCs.endXfer f (.bytes r) rest) := by
  simp [xfer, h, hl]

/-- An Xfer answered by `fail` fails. -/
theorem xfer_fail {s : State} {f : Bytes} {rest : List Answer} (h : s.answers = .fail :: rest) :
    xfer f s = .failed (s.assertCs.endXfer f .fail rest) := by
  simp [xfer, h]

/-- An Xfer answered with another length fails. -/
theorem xfer_wrongLength {s : State} {f r : Bytes} {rest : List Answer} (h : s.answers = .bytes r :: rest)
    (hl : r.length ≠ f.length) : xfer f s = .failed (s.assertCs.endXfer f (.bytes r) rest) := by
  simp [xfer, h, hl]

/-- The three ends of an Xfer. -/
theorem xfer_cases (f : Bytes) (s : State) :
    (s.answers = [] ∧ xfer f s = .waiting s.assertCs) ∨
    (∃ r rest, s.answers = .bytes r :: rest ∧ r.length = f.length ∧
      xfer f s = .answered r (s.assertCs.endXfer f (.bytes r) rest)) ∨
    (∃ a rest, s.answers = a :: rest ∧ (∀ r, a = .bytes r → r.length ≠ f.length) ∧
      xfer f s = .failed (s.assertCs.endXfer f a rest)) := by
  rcases h : s.answers with _ | ⟨a, rest⟩
  · exact .inl ⟨rfl, xfer_waiting f h⟩
  · rcases a with r | _
    · by_cases hl : r.length = f.length
      · exact .inr (.inl ⟨r, rest, rfl, hl, xfer_answered h hl⟩)
      · exact .inr (.inr ⟨_, rest, rfl, by rintro r' ⟨⟩; exact hl, xfer_wrongLength h hl⟩)
    · exact .inr (.inr ⟨_, rest, rfl, by simp, xfer_fail h⟩)

/-- What sending a frame can do: it waits, ends the request with TransportFailure, or hands the answer on. -/
theorem sendFrame_cases {f : Bytes} {k : State → State} {s t : State} (h : sendFrame (some f) k s = .next t) :
    (s.answers = [] ∧ t = s.assertCs) ∨
    (∃ r rest, s.answers = .bytes r :: rest ∧ r.length = f.length ∧
      t = k ((s.assertCs.endXfer f (.bytes r) rest).setResp r)) ∨
    (∃ a rest, s.answers = a :: rest ∧ (∀ r, a = .bytes r → r.length ≠ f.length) ∧
      t = errorEntry .transportFailure (s.assertCs.endXfer f a rest)) := by
  rcases ha : s.answers with _ | ⟨a, rest⟩
  · refine .inl ⟨rfl, ?_⟩
    simpa [sendFrame, xfer_waiting f ha] using h.symm
  · rcases a with r | _
    · by_cases hl : r.length = f.length
      · refine .inr (.inl ⟨r, rest, rfl, hl, ?_⟩)
        simpa [sendFrame, xfer_answered ha hl] using h.symm
      · refine .inr (.inr ⟨_, rest, rfl, by rintro r' ⟨⟩; exact hl, ?_⟩)
        simpa [sendFrame, xfer_wrongLength ha hl] using h.symm
    · refine .inr (.inr ⟨_, rest, rfl, by simp, ?_⟩)
      simpa [sendFrame, xfer_fail ha] using h.symm

/-- Sending a frame never stops the machine. -/
theorem sendFrame_next (f : Bytes) (k : State → State) (s : State) : ∃ t, sendFrame (some f) k s = .next t := by
  simp only [sendFrame]
  cases xfer f s <;> exact ⟨_, rfl⟩

/-! ## Loops -/

@[simp] theorem startWriteStep_eq (p : Phase) (i n a : Nat) (s : State) :
    startWriteStep p i n a s = (s.setLoop i n a).goto .waitIdle p := rfl

@[simp] theorem beginChunks_eq (s : State) : beginChunks s = (s.setRbuf []).goto .sendRead .single := rfl

end Sys2Proof.Machine
end

