-- ==== Sys2Proof/Laws/PerInstr.lean ====
section
/-! SUPPORT. A statement made per instruction: the two encoding spaces (spec/30_encoding.md R72, R79). A wire command is encoded as a
frame only, a host request as a request only. -/

namespace Sys2Proof

/-- A wire command has no request encoding, a host request has exactly that one. -/
def Laws.Spaces.Statement (i : Instr) : Prop :=
  (encodeRequest i).isSome = !i.isWire ∧ (i.isWire = false → encodeFrame i = none)

theorem Laws.Spaces.rdid (n : Nat) : Laws.Spaces.Statement (.rdid n) := ⟨rfl, fun h => Bool.noConfusion h⟩
theorem Laws.Spaces.rdsr : Laws.Spaces.Statement .rdsr := ⟨rfl, fun h => Bool.noConfusion h⟩
theorem Laws.Spaces.rfsr : Laws.Spaces.Statement .rfsr := ⟨rfl, fun h => Bool.noConfusion h⟩
theorem Laws.Spaces.wren : Laws.Spaces.Statement .wren := ⟨rfl, fun h => Bool.noConfusion h⟩
theorem Laws.Spaces.pp (a : Nat) (d : Bytes) : Laws.Spaces.Statement (.pp a d) := ⟨rfl, fun h => Bool.noConfusion h⟩
theorem Laws.Spaces.se (a : Nat) : Laws.Spaces.Statement (.se a) := ⟨rfl, fun h => Bool.noConfusion h⟩
theorem Laws.Spaces.sse (a : Nat) : Laws.Spaces.Statement (.sse a) := ⟨rfl, fun h => Bool.noConfusion h⟩
theorem Laws.Spaces.be : Laws.Spaces.Statement .be := ⟨rfl, fun h => Bool.noConfusion h⟩
theorem Laws.Spaces.readData (a n : Nat) : Laws.Spaces.Statement (.readData a n) := ⟨rfl, fun h => Bool.noConfusion h⟩
theorem Laws.Spaces.identify : Laws.Spaces.Statement .identify := ⟨rfl, fun _ => rfl⟩
theorem Laws.Spaces.poll : Laws.Spaces.Statement .poll := ⟨rfl, fun _ => rfl⟩
theorem Laws.Spaces.waitIdle : Laws.Spaces.Statement .waitIdle := ⟨rfl, fun _ => rfl⟩
theorem Laws.Spaces.eraseSector (a : BitVec 32) : Laws.Spaces.Statement (.eraseSector a) := ⟨rfl, fun _ => rfl⟩
theorem Laws.Spaces.eraseSubsector (a : BitVec 32) : Laws.Spaces.Statement (.eraseSubsector a) := ⟨rfl, fun _ => rfl⟩
theorem Laws.Spaces.eraseBulk : Laws.Spaces.Statement .eraseBulk := ⟨rfl, fun _ => rfl⟩
theorem Laws.Spaces.pageProgram (a : BitVec 32) (d : Bytes) : Laws.Spaces.Statement (.pageProgram a d) := ⟨rfl, fun _ => rfl⟩
theorem Laws.Spaces.read (a l : BitVec 32) : Laws.Spaces.Statement (.read a l) := ⟨rfl, fun _ => rfl⟩
theorem Laws.Spaces.program (d : Bytes) : Laws.Spaces.Statement (.program d) := ⟨rfl, fun _ => rfl⟩
theorem Laws.Spaces.verify (d : Bytes) : Laws.Spaces.Statement (.verify d) := ⟨rfl, fun _ => rfl⟩

end Sys2Proof
end

