-- ==== Sys2Proof/Laws/Step.lean ====
section
/-! SUPPORT. What one step can do, said once (the inversion lemmas of step, frameStep and the wire commands). -/

namespace Sys2Proof.Machine

/-- A wire command is its frame sent, with WSTATE <- UNKNOWN after a destructive one. -/
theorem exec_wire {w : Instr} (h : w.isWire = true) (s : State) :
    exec w s = sendFrame (encodeFrame w) (if w.isDestructive then fun t => t.setWState .unknown else id) s := by
  cases w <;> first | rfl | exact Bool.noConfusion h

/-- The instruction at a frame line is a wire command. -/
theorem lineInstr_isWire {i w : Instr} {s : State} (h : lineInstr i s = some w) : w.isWire = true := by
  unfold lineInstr at h
  split at h
  all_goals try split at h
  all_goals first
    | (simp only [Option.some.injEq] at h; subst h; first | rfl | (unfold pollInstr; split <;> rfl))
    | simp at h
    | skip
  unfold destructiveInstr at h
  split at h
  all_goals try (split at h)
  all_goals try (split at h)
  all_goals first
    | (simp only [Option.some.injEq] at h; subst h; rfl)
    | simp at h

/-- What a step that goes on can be. -/
theorem step_cases {s t : State} (h : step s = .next t) :
    s.cfg.wf = true ∧
    ((s.seqState = .ready ∧ t = acceptStep s) ∨
     (s.seqState = .exec ∧ ∃ e, decodeRequest s.req = .error e ∧ t = errorEntry .invalidRequest s) ∨
     (s.seqState = .exec ∧ ∃ i, decodeRequest s.req = .ok i ∧ s.pos.line = .entry ∧ exec i s = .next t) ∨
     (s.seqState = .exec ∧ ∃ i w u, decodeRequest s.req = .ok i ∧ s.pos.line ≠ .entry ∧ lineInstr i s = some w ∧
       exec w s = .next u ∧ t = afterFrame i u)) := by
  unfold step at h
  by_cases hc : s.cfg.wf = true
  · refine ⟨hc, ?_⟩
    rw [if_pos hc] at h
    cases hs : s.seqState with
    | ready => simp only [hs, Host.Outcome.next.injEq] at h; exact .inl ⟨rfl, h.symm⟩
    | exec =>
      simp only [hs] at h
      unfold execStep at h
      cases hd : decodeRequest s.req with
      | error e =>
        simp only [hd, raise_eq, Host.Outcome.next.injEq] at h
        exact .inr (.inl ⟨rfl, e, rfl, h.symm⟩)
      | ok i =>
        simp only [hd] at h
        by_cases hl : s.pos.line = .entry
        · rw [if_pos hl] at h
          exact .inr (.inr (.inl ⟨rfl, i, rfl, hl, h⟩))
        · rw [if_neg hl] at h
          unfold frameStep at h
          cases hw : lineInstr i s with
          | none => simp [hw] at h
          | some w =>
            simp only [hw] at h
            cases hx : exec w s with
            | next u =>
              simp only [hx, Host.Outcome.next.injEq] at h
              exact .inr (.inr (.inr ⟨rfl, i, w, u, rfl, hl, hw, hx, h.symm⟩))
            | fault f => simp [hx] at h
            | refused r => simp [hx] at h
  · rw [if_neg hc] at h
    exact absurd h (by simp)

/-- A request at its first line is run. -/
theorem step_entry {s : State} {i : Instr} (hc : s.cfg.wf = true) (hs : s.seqState = .exec)
    (hd : decodeRequest s.req = .ok i) (hl : s.pos.line = .entry) : step s = exec i s := by
  simp [step, execStep, hc, hs, hd, hl]

/-- A frame line sends its frame, and the request goes on. -/
theorem step_frame {s u : State} {i w : Instr} (hc : s.cfg.wf = true) (hs : s.seqState = .exec)
    (hd : decodeRequest s.req = .ok i) (hl : s.pos.line ≠ .entry) (hw : lineInstr i s = some w)
    (hx : exec w s = .next u) : step s = .next (afterFrame i u) := by
  simp [step, execStep, frameStep, hc, hs, hd, hl, hw, hx]

/-- A frame that was answered: the request's lines run on. -/
theorem afterFrame_answered (i : Instr) {s : State} (hs : s.seqState = .exec) (hc : s.cs = false) :
    afterFrame i s = advance i s := by
  simp [afterFrame, hs, hc]

/-- A step at a frame line with an answer of the frame's length. -/
theorem step_answered {s : State} {i w : Instr} {f r : Bytes} {rest : List Answer} (hc : s.cfg.wf = true)
    (hs : s.seqState = .exec) (hd : decodeRequest s.req = .ok i) (hl : s.pos.line ≠ .entry)
    (hw : lineInstr i s = some w) (hf : encodeFrame w = some f) (ha : s.answers = .bytes r :: rest)
    (hr : r.length = f.length) :
    step s = .next (advance i
      ((if w.isDestructive then fun t => t.setWState .unknown else id) ((s.assertCs.endXfer f (.bytes r) rest).setResp r))) := by
  have hx : exec w s = .next ((if w.isDestructive then fun t => t.setWState .unknown else id)
      ((s.assertCs.endXfer f (.bytes r) rest).setResp r)) := by
    rw [exec_wire (lineInstr_isWire hw), hf]
    simp [sendFrame, xfer_answered ha hr]
  rw [step_frame hc hs hd hl hw hx, afterFrame_answered]
  · split <;> simp [hs]
  · split <;> simp

/-- Runs compose. -/
theorem run_add (m n : Nat) (s : State) :
    Host.Core.run Sys2Proof.core (m + n) s =
      match Host.Core.run Sys2Proof.core m s with
      | .next t => Host.Core.run Sys2Proof.core n t
      | .fault f => .fault f
      | .refused r => .refused r := by
  induction m generalizing s with
  | zero => simp [Host.Core.run]
  | succ m ih =>
    rw [Nat.succ_add]
    simp only [Host.Core.run]
    cases h : Sys2Proof.core.step s with
    | next u => exact ih u
    | fault f => rfl
    | refused r => rfl

/-- One more step in front. -/
theorem run_succ {s t : State} (n : Nat) (h : step s = .next t) :
    Host.Core.run Sys2Proof.core (n + 1) s = Host.Core.run Sys2Proof.core n t := by
  have : Sys2Proof.core.step s = .next t := h
  simp [Host.Core.run, this]

end Sys2Proof.Machine
end

