-- ==== Sys2Proof/Machine/Text.lean ====
section
/-! DEFINITION. The written syntax of requests and frames (spec/30_encoding.md R83): a reader and a writer of one line. It is notation
only (92_eei_decisions.md D28); no step uses it. -/

namespace Sys2Proof.Machine

/-! ## Reading -/

/-- The tokens of a line. -/
inductive Tok where
  | word (w : List Char)
  | num (n : Nat)
  | comma
  | lbrace
  | rbrace
  | lparen
  | rparen
  | dash
  | greater
  | bad
  deriving DecidableEq, Repr

/-- A digit's value in base 10 or 16. -/
def digitVal (c : Char) : Option Nat :=
  if '0' ≤ c ∧ c ≤ '9' then some (c.toNat - 48)
  else if 'a' ≤ c ∧ c ≤ 'f' then some (c.toNat - 87)
  else if 'A' ≤ c ∧ c ≤ 'F' then some (c.toNat - 55)
  else none

/-- The value of a digit string in a base, after the value `acc`. -/
def digitsVal (base acc : Nat) : List Char → Option Nat
  | [] => some acc
  | c :: cs =>
    match digitVal c with
    | some d => if d < base then digitsVal base (acc * base + d) cs else none
    | none => none

/-- A word of letters, digits and underscores: a decimal number, a `0x` hexadecimal number, or a name. -/
def wordTok (w : List Char) : Tok :=
  match w with
  | '0' :: 'x' :: h :: hs => ((digitsVal 16 0 (h :: hs)).map .num).getD .bad
  | c :: cs => if '0' ≤ c ∧ c ≤ '9' then ((digitsVal 10 0 (c :: cs)).map .num).getD .bad else .word w
  | [] => .bad

/-- The characters of words. -/
def isWordChar (c : Char) : Bool := c.isAlphanum || c == '_'

/-- The token of a single character; `none` for a blank. Characters 123 and 125 are the braces. -/
def charTok (c : Char) : Option Tok :=
  if c == ' ' || c == '\t' || c == '\n' || c == '\r' then none
  else if c == ',' then some .comma
  else if c.toNat == 123 then some .lbrace
  else if c.toNat == 125 then some .rbrace
  else if c == '(' then some .lparen
  else if c == ')' then some .rparen
  else if c == '-' then some .dash
  else if c == '>' then some .greater
  else some .bad

/-- The word collected so far, then the rest. -/
def flushWord (acc : List Char) (rest : List Tok) : List Tok :=
  match acc with
  | [] => rest
  | _ :: _ => wordTok acc.reverse :: rest

/-- The tokens of a line, `acc` being the reversed word at hand. A comment runs from `;` to the end of the line. -/
def lex (acc : List Char) : List Char → List Tok
  | [] => flushWord acc []
  | c :: cs =>
    if c == ';' then flushWord acc []
    else if isWordChar c then lex (c :: acc) cs
    else flushWord acc ((charTok c).toList ++ lex [] cs)

/-- `bytes(N, k -> expr)`: the N bytes whose k-th byte is expr mod 256. -/
def bytesOf (n : Nat) (e : Nat → Nat) : Bytes := (List.range n).map (fun k => BitVec.ofNat 8 (e k))

/-- The list form `b0, b1, ...` up to the closing brace, which ends the line. -/
def parseByteList : List Tok → Option Bytes
  | [.num n, .rbrace] => if n < 256 then some [BitVec.ofNat 8 n] else none
  | .num n :: .comma :: rest =>
    if n < 256 then (parseByteList rest).map (fun d => BitVec.ofNat 8 n :: d) else none
  | _ => none

/-- `<data>` at the end of a line. The spec gives no grammar for expr; a number and the index name are read (log entry 18). -/
def parseData : List Tok → Option Bytes
  | [.lbrace, .rbrace] => some []
  | .lbrace :: rest => parseByteList rest
  | [.word f, .lparen, .num n, .comma, .word _, .dash, .greater, .num e, .rparen] =>
    if f = "bytes".toList then some (bytesOf n (fun _ => e)) else none
  | [.word f, .lparen, .num n, .comma, .word k, .dash, .greater, .word e, .rparen] =>
    if f = "bytes".toList ∧ e = k then some (bytesOf n id) else none
  | _ => none

/-- A 32-bit request field. -/
def field32 (n : Nat) : Option (BitVec 32) := if n < 4294967296 then some (BitVec.ofNat 32 n) else none

/-- Lines with no operand. -/
def parseBare (m : String) : Option Instr :=
  match m with
  | "IDENTIFY" => some .identify
  | "POLL" => some .poll
  | "WAIT_IDLE" => some .waitIdle
  | "ERASE_BULK" => some .eraseBulk
  | "RDSR" => some .rdsr
  | "RFSR" => some .rfsr
  | "WREN" => some .wren
  | "BE" => some .be
  | _ => none

/-- Lines with one number. -/
def parseNum1 (m : String) (n : Nat) : Option Instr :=
  match m with
  | "ERASE_SECTOR" => (field32 n).map .eraseSector
  | "ERASE_SUBSECTOR" => (field32 n).map .eraseSubsector
  | "RDID" => some (.rdid n)
  | "SE" => some (.se n)
  | "SSE" => some (.sse n)
  | _ => none

/-- Lines with two numbers. -/
def parseNum2 (m : String) (a n : Nat) : Option Instr :=
  match m with
  | "READ" => (field32 a).bind (fun x => (field32 n).map (fun l => .read x l))
  | "READ_DATA" => some (.readData a n)
  | _ => none

/-- Lines with data. -/
def parseData1 (m : String) (d : Bytes) : Option Instr :=
  match m with
  | "PROGRAM" => some (.program d)
  | "VERIFY" => some (.verify d)
  | _ => none

/-- Lines with an address and data. -/
def parseAddrData (m : String) (a : Nat) (d : Bytes) : Option Instr :=
  match m with
  | "PAGE_PROGRAM" => (field32 a).map (fun x => .pageProgram x d)
  | "PP" => some (.pp a d)
  | _ => none

/-- One line of R83's syntax. DUMP, whose length comes from the state, is `State.dump`. -/
def parseLine (line : String) : Option Instr :=
  match lex [] line.toList with
  | [.word m] => parseBare (String.ofList m)
  | [.word m, .num n] => parseNum1 (String.ofList m) n
  | [.word m, .num a, .comma, .num n] => parseNum2 (String.ofList m) a n
  | .word m :: .num a :: .comma :: rest => (parseData rest).bind (parseAddrData (String.ofList m) a)
  | .word m :: rest => (parseData rest).bind (parseData1 (String.ofList m))
  | _ => none

/-! ## Writing -/

/-- The list form of `<data>`. -/
def dataText (d : Bytes) : String :=
  String.singleton (Char.ofNat 123) ++ String.intercalate ", " (d.map (fun b => toString b.toNat)) ++ String.singleton (Char.ofNat 125)

/-- An instruction in R83's syntax. -/
def lineText : Instr → String
  | .rdid n => "RDID " ++ toString n
  | .rdsr => "RDSR"
  | .rfsr => "RFSR"
  | .wren => "WREN"
  | .pp a d => "PP " ++ toString a ++ ", " ++ dataText d
  | .se a => "SE " ++ toString a
  | .sse a => "SSE " ++ toString a
  | .be => "BE"
  | .readData a n => "READ_DATA " ++ toString a ++ ", " ++ toString n
  | .identify => "IDENTIFY"
  | .poll => "POLL"
  | .waitIdle => "WAIT_IDLE"
  | .eraseSector a => "ERASE_SECTOR " ++ toString a.toNat
  | .eraseSubsector a => "ERASE_SUBSECTOR " ++ toString a.toNat
  | .eraseBulk => "ERASE_BULK"
  | .pageProgram a d => "PAGE_PROGRAM " ++ toString a.toNat ++ ", " ++ dataText d
  | .read a l => "READ " ++ toString a.toNat ++ ", " ++ toString l.toNat
  | .program d => "PROGRAM " ++ dataText d
  | .verify d => "VERIFY " ++ dataText d

end Sys2Proof.Machine
end

