-- ==== Sys2Proof/Tests/Slice0.lean ====
section
/-! SUPPORT. Tests (expected values from spec/95_test_vectors.md and the rules, not from the model) and the witnesses of the obligations'
hypotheses. -/

namespace Sys2Proof.Tests

open Sys2Proof Sys2Proof.Machine

/-! ## Helpers -/

/-- The next state, if there is one. -/
def nextOf {σ φ ρ : Type} : Host.Outcome σ φ ρ → Option σ
  | .next t => some t
  | .fault _ => none
  | .refused _ => none

theorem exists_next {σ φ ρ β : Type} {o : Host.Outcome σ φ ρ} {g : σ → β} {v : β} (h : (nextOf o).map g = some v) :
    ∃ t, o = .next t ∧ g t = v := by
  cases o with
  | next t => exact ⟨t, rfl, by simpa [nextOf] using h⟩
  | fault _ => simp [nextOf] at h
  | refused _ => simp [nextOf] at h

theorem exists_length (n : Nat) : ∃ d : Bytes, d.length = n := ⟨List.replicate n 0#8, List.length_replicate⟩

/-- A byte whose value no rule reads. -/
def x : Byte := 0xA5#8

/-- The RDID event of S1. -/
def idEvent : Event := { frame := [0x9F#8, 0x00#8, 0x00#8, 0x00#8], answer := .bytes [x, 0x20#8, 0xBA#8, 0x16#8] }

/-- S1 of spec/95_test_vectors.md: resolved to FAMILY_A, method FLAG, WSTATE UNKNOWN. -/
def s1 : State :=
  { State.reset with
    ident := { mfr := 0x20#8, type := 0xBA#8, cap := 0x16#8, uid := [] }
    geom := { valid := true, family := .familyA, sectorLen := 65536#32, subValid := true, subLen := 4096#32, busy := .flag }
    trace := [idEvent] }

/-- S1 with a poll that reported idle behind it. -/
def s1Idle : State :=
  { s1 with
    wstate := .idle
    poll := { value := 0x80#8, valid := true }
    trace := [idEvent, { frame := [0x70#8, 0x00#8], answer := .bytes [x, 0x80#8] }] }

/-- `s` in EXEC at the first line of request `r`, with answers at hand. -/
def entry (r : Request) (as : List Answer) (s : State) : State :=
  { s with seqState := .exec, req := r, pos := { line := .entry, phase := .single }, answers := as }

/-- `s` in EXEC at a frame line of request `r`, at step `i` of `n` for address `a`. -/
def atLine (r : Request) (l : Line) (i n a : Nat) (as : List Answer) (s : State) : State :=
  { s with
    seqState := .exec, req := r, pos := { line := l, phase := .single }, answers := as
    work := { s.work with i := i, n := n, a := a } }

def idleF : Answer := .bytes [x, 0x80#8]
def busyF : Answer := .bytes [x, 0x00#8]

def reqIdentify : Request := ⟨0x1#4, 0#32, 0#32, []⟩
def reqPoll : Request := ⟨0x2#4, 0#32, 0#32, []⟩
def reqWait : Request := ⟨0x3#4, 0#32, 0#32, []⟩
def reqBulk : Request := ⟨0x6#4, 0#32, 0#32, []⟩
def reqRead : Request := ⟨0x8#4, 0x00000100#32, 0x00000002#32, []⟩
def reqProgram : Request := ⟨0x9#4, 0#32, 0#32, [0x5A#8]⟩
def reqVerify : Request := ⟨0xA#4, 0#32, 0#32, [0x5A#8]⟩

/-! ## WellFormed: an ill-formed term for each check, refused -/

theorem test_wf_rdid_length : Instr.wf Config.default (.rdid 4) = false := by decide
theorem test_wf_pp_address : Instr.wf Config.default (.pp 16777216 [0x00#8]) = false := by decide
theorem test_wf_pp_empty : Instr.wf Config.default (.pp 0 []) = false := by decide
theorem test_wf_pp_long (d : Bytes) (h : d.length = 257) : Instr.wf Config.default (.pp 0 d) = false := by
  simp [Instr.wf, ppOperandsOk, h]
theorem test_wf_pp_crosses_page : Instr.wf Config.default (.pp 0xFF [0x00#8, 0x00#8]) = false := by decide
theorem test_wf_se_address : Instr.wf Config.default (.se 16777216) = false := by decide
theorem test_wf_sse_address : Instr.wf Config.default (.sse 16777216) = false := by decide
theorem test_wf_read_none : Instr.wf Config.default (.readData 0 0) = false := by decide
theorem test_wf_read_chunk : Instr.wf Config.default (.readData 0 2049) = false := by decide
theorem test_wf_read_range : Instr.wf Config.default (.readData 16777215 2) = false := by decide
theorem test_wf_data_width (d : Bytes) (h : d.length = 4294967296) :
    Instr.wf Config.default (.pageProgram 0#32 d) = false ∧ Instr.wf Config.default (.program d) = false ∧
    Instr.wf Config.default (.verify d) = false := by
  refine ⟨?_, ?_, ?_⟩ <;> simp only [Instr.wf, dataFits, h, lt_self_iff_false, decide_false]
theorem test_wf_config_default : Config.default.wf = true := by decide
theorem test_wf_config_chunk : Config.wf { Config.default with readChunk := 0 } = false := by decide
theorem test_wf_config_sector :
    Config.wf { Config.default with geomTable := [⟨0x20#8, 0xBA#8, ⟨.familyA, 1000, none, .flag⟩⟩] } = false ∧
    Config.wf { Config.default with geomTable := [⟨0x20#8, 0xBA#8, ⟨.familyA, 0, none, .flag⟩⟩] } = false ∧
    Config.wf { Config.default with geomTable := [⟨0x20#8, 0xBA#8, ⟨.familyA, 4294967296, none, .flag⟩⟩] } = false ∧
    Config.wf { Config.default with geomTable := [⟨0x20#8, 0xBA#8, ⟨.familyA, 65536, some 1000, .flag⟩⟩] } = false := by decide
theorem test_wf_config_family :
    Config.wf { Config.default with geomTable := [⟨0x20#8, 0xBA#8, ⟨.unknown, 65536, none, .flag⟩⟩] } = false := by decide
theorem test_wf_config_keys : Config.wf { Config.default with geomTable := [n25qEntry, n25qEntry] } = false := by decide

/-! ## Decoding: words written out from R72, R73, R75 and R79 (V2, V7) -/

theorem test_decode_rdid : decodeFrame [0x9F#8, 0x00#8, 0x00#8, 0x00#8] = .ok (.rdid 3) := rfl
theorem test_decode_rdsr : decodeFrame [0x05#8, 0x00#8] = .ok .rdsr := rfl
theorem test_decode_rfsr : decodeFrame [0x70#8, 0x00#8] = .ok .rfsr := rfl
theorem test_decode_wren : decodeFrame [0x06#8] = .ok .wren := rfl
theorem test_decode_pp : decodeFrame [0x02#8, 0x00#8, 0x01#8, 0x00#8, 0xDE#8, 0xAD#8] = .ok (.pp 0x000100 [0xDE#8, 0xAD#8]) := rfl
theorem test_decode_se : decodeFrame [0xD8#8, 0x00#8, 0x00#8, 0xFF#8] = .ok (.se 0xFF0000) := rfl
theorem test_decode_sse : decodeFrame [0x20#8, 0x00#8, 0xF0#8, 0x00#8] = .ok (.sse 0x00F000) := rfl
theorem test_decode_be : decodeFrame [0xC7#8] = .ok .be := rfl
theorem test_decode_readData : decodeFrame [0x03#8, 0xFF#8, 0xFF#8, 0xFF#8, 0x00#8] = .ok (.readData 0xFFFFFF 1) := rfl
theorem test_decode_identify : decodeRequest ⟨0x1#4, 7#32, 9#32, [x]⟩ = .ok .identify := rfl
theorem test_decode_poll : decodeRequest ⟨0x2#4, 0#32, 0#32, []⟩ = .ok .poll := rfl
theorem test_decode_waitIdle : decodeRequest ⟨0x3#4, 0#32, 0#32, []⟩ = .ok .waitIdle := rfl
theorem test_decode_eraseSector : decodeRequest ⟨0x4#4, 0x00010000#32, 0#32, []⟩ = .ok (.eraseSector 0x00010000#32) := rfl
theorem test_decode_eraseSubsector : decodeRequest ⟨0x5#4, 0x00001000#32, 0#32, []⟩ = .ok (.eraseSubsector 0x00001000#32) := rfl
theorem test_decode_eraseBulk : decodeRequest ⟨0x6#4, 0#32, 0#32, []⟩ = .ok .eraseBulk := rfl
theorem test_decode_pageProgram :
    decodeRequest ⟨0x7#4, 0x00000010#32, 0#32, [0x55#8]⟩ = .ok (.pageProgram 0x00000010#32 [0x55#8]) := rfl
theorem test_decode_read : decodeRequest ⟨0x8#4, 0x00000100#32, 0x00000005#32, []⟩ = .ok (.read 0x00000100#32 0x00000005#32) := rfl
theorem test_decode_program : decodeRequest ⟨0x9#4, 0#32, 0#32, [0x5A#8]⟩ = .ok (.program [0x5A#8]) := rfl
theorem test_decode_verify : decodeRequest ⟨0xA#4, 0#32, 0#32, [0x5A#8]⟩ = .ok (.verify [0x5A#8]) := rfl
theorem test_decode_rejects :
    decodeFrame [] = .error .emptyFrame ∧ decodeFrame [0x9E#8] = .error (.unknownOpcode 0x9E#8) ∧
    decodeFrame [0x9F#8, 0x00#8, 0x00#8] = .error (.badLength 0x9F#8 3) ∧ decodeFrame [0x70#8] = .error (.badLength 0x70#8 1) ∧
    decodeFrame [0x02#8, 0x00#8, 0x00#8, 0x00#8] = .error (.badLength 0x02#8 4) ∧
    decodeFrame [0x05#8, 0x01#8] = .error (.badFiller 0x05#8) ∧
    decodeRequest ⟨0xB#4, 0#32, 0#32, []⟩ = .error (.reservedKind 0xB#4) := by
  refine ⟨rfl, rfl, rfl, rfl, rfl, rfl, rfl⟩
/-- The table's two spaces: an 8-bit word is frame byte 0, a 4-bit word is KIND. -/
theorem test_decode_table :
    decodeTableWord 8 0x9F = some (.rdid 3) ∧ decodeTableWord 8 0x02 = some (.pp 0 [0x00#8]) ∧
    decodeTableWord 8 0xD8 = some (.se 0) ∧ decodeTableWord 8 0x03 = some (.readData 0 1) ∧
    decodeTableWord 4 0x02 = some .poll ∧ decodeTableWord 4 0x9 = some (.program []) ∧ decodeTableWord 4 0xB = none ∧
    decodeTableWord 8 0xAB = none := by decide

/-! ## Codec vectors V1 -/

theorem test_codec_encode : codecEncode 0x02#8 (some 0x012345) [0xAA#8] = some [0x02#8, 0x45#8, 0x23#8, 0x01#8, 0xAA#8] := by decide
theorem test_codec_decode : codecDecode [0xFF#8, 0x20#8, 0xBA#8, 0x16#8] 1 = [0x20#8, 0xBA#8, 0x16#8] ∧
    codecDecode [0x11#8, 0x22#8] 5 = [] := by decide
theorem test_codec_address : decodeAddr [0x00#8, 0x08#8, 0x00#8] = some 2048 ∧ le24 0xABCDEF = [0xEF#8, 0xCD#8, 0xAB#8] := by decide

/-! ## Wire commands (V2) -/

theorem test_rdid : (nextOf (exec (.rdid 3) { State.reset with answers := [.bytes [x, 0x20#8, 0xBA#8, 0x16#8]] })).map
    (fun t => (t.trace, t.cs, t.geom.valid)) = some ([idEvent], false, false) := by decide
theorem test_rdsr : (nextOf (exec .rdsr { State.reset with answers := [.bytes [x, 0x03#8]] })).map
    (fun t => (t.trace, t.work.resp)) = some ([⟨[0x05#8, 0x00#8], .bytes [x, 0x03#8]⟩], [x, 0x03#8]) := by decide
theorem test_rdsr_short : (nextOf (exec .rdsr { State.reset with answers := [.bytes [x]] })).map
    (fun t => (t.lastStatus, t.cs, t.responses)) = some (.transportFailure, false, [⟨.transportFailure, .none⟩]) := by decide
theorem test_rfsr : (nextOf (exec .rfsr { State.reset with answers := [idleF] })).map
    (fun t => t.trace) = some [⟨[0x70#8, 0x00#8], idleF⟩] := by decide
theorem test_wren : (nextOf (exec .wren { s1Idle with answers := [.bytes [x]] })).map
    (fun t => (t.trace.getLast?, t.wstate)) = some (some ⟨[0x06#8], .bytes [x]⟩, .idle) := by decide
theorem test_pp : (nextOf (exec (.pp 0x000100 [0xDE#8, 0xAD#8]) { s1Idle with answers := [.bytes [x, x, x, x, x, x]] })).map
    (fun t => (t.trace.getLast?.map Event.frame, t.wstate)) =
      some (some [0x02#8, 0x00#8, 0x01#8, 0x00#8, 0xDE#8, 0xAD#8], .unknown) := by decide
theorem test_se : (nextOf (exec (.se 0x010000) { s1Idle with answers := [.bytes [x, x, x, x]] })).map
    (fun t => (t.trace.getLast?.map Event.frame, t.wstate)) = some (some [0xD8#8, 0x00#8, 0x00#8, 0x01#8], .unknown) := by decide
theorem test_sse : (nextOf (exec (.sse 0x001000) { s1Idle with answers := [.bytes [x, x, x, x]] })).map
    (fun t => (t.trace.getLast?.map Event.frame, t.wstate)) = some (some [0x20#8, 0x00#8, 0x10#8, 0x00#8], .unknown) := by decide
theorem test_be : (nextOf (exec .be { s1Idle with answers := [.bytes [x]] })).map
    (fun t => (t.trace.getLast?.map Event.frame, t.wstate)) = some (some [0xC7#8], .unknown) := by decide
theorem test_be_fail : (nextOf (exec .be { s1Idle with answers := [.fail] })).map
    (fun t => (t.trace.getLast?, t.lastStatus, t.seqState)) = some (some ⟨[0xC7#8], .fail⟩, .transportFailure, .ready) := by decide
theorem test_readData :
    (nextOf (exec (.readData 0x000100 2) { s1Idle with answers := [.bytes [x, x, x, x, 0x12#8, 0x34#8]] })).map
    (fun t => (t.trace.getLast?.map Event.frame, t.work.resp.drop 4, t.wstate)) =
      some (some [0x03#8, 0x00#8, 0x01#8, 0x00#8, 0x00#8, 0x00#8], [0x12#8, 0x34#8], .idle) := by decide

/-! ## Host requests, one step each (V3 to V12) -/

/-- V3: the N25Q answer. -/
theorem test_identify : (nextOf (step (atLine reqIdentify .sendRdid 0 0 0 [.bytes [x, 0x20#8, 0xBA#8, 0x16#8]] State.reset))).map
    (fun t => (t.geom, t.warn, t.capacityBytes, t.lastStatus)) =
      some (⟨true, .familyA, 65536#32, true, 4096#32, .flag⟩, false, some 4194304, .ok) := by decide
/-- V3: an unrecognized type of a recognized manufacturer. -/
theorem test_identify_unknown :
    (nextOf (step (atLine reqIdentify .sendRdid 0 0 0 [.bytes [x, 0x20#8, 0xBB#8, 0x18#8]] State.reset))).map
    (fun t => (t.geom.family, t.geom.sectorLen, t.geom.subValid, t.geom.busy, t.warn)) =
      some (.unknown, 65536#32, false, .status, true) := by decide
/-- V5: [x, 0xC0] is IDLE under FLAG. -/
theorem test_poll : (nextOf (step (atLine reqPoll .pollOnce 0 0 0 [.bytes [x, 0xC0#8]] s1))).map
    (fun t => (t.wstate, t.poll.value, t.responses)) = some (.idle, 0xC0#8, [⟨.ok, .poll .idle 0xC0#8⟩]) := by decide
/-- V5: [x, 0x03] is BUSY under STATUS. -/
theorem test_poll_status : (nextOf (step (atLine reqPoll .pollOnce 0 0 0 [.bytes [x, 0x03#8]]
    { s1 with geom := { s1.geom with busy := .status } }))).map
    (fun t => (t.wstate, t.trace.getLast?.map Event.frame)) = some (.busy, some [0x05#8, 0x00#8]) := by decide
theorem test_waitIdle : (nextOf (step (atLine reqWait .waitIdle 0 0 0 [busyF] s1))).map
    (fun t => (t.wstate, t.seqState, t.pos.line)) = some (.busy, .exec, .waitIdle) := by decide
theorem test_waitIdle_done : (nextOf (step (atLine reqWait .waitIdle 0 0 0 [idleF] s1))).map
    (fun t => (t.wstate, t.responses)) = some (.idle, [⟨.ok, .waitIdle 0x80#8⟩]) := by decide
/-- V7: 0x001000 is not 65536-aligned. -/
theorem test_eraseSector_unaligned : (nextOf (step (entry ⟨0x4#4, 0x00001000#32, 0#32, []⟩ [] s1))).map
    (fun t => (t.lastStatus, t.trace)) = some (.invalidArgument, [idEvent]) := by decide
theorem test_eraseSector :
    (nextOf (step (atLine ⟨0x4#4, 0x00010000#32, 0#32, []⟩ .destructive 0 1 0x010000 [.bytes [x, x, x, x]] s1Idle))).map
    (fun t => (t.trace.getLast?.map Event.frame, t.wstate, t.responses)) =
      some (some [0xD8#8, 0x00#8, 0x00#8, 0x01#8], .unknown, [⟨.ok, .none⟩]) := by decide
theorem test_eraseSubsector_absent : (nextOf (step (entry ⟨0x5#4, 0#32, 0#32, []⟩ []
    { s1 with geom := { s1.geom with subValid := false } }))).map (fun t => t.lastStatus) = some .invalidArgument := by decide
theorem test_eraseSubsector :
    (nextOf (step (atLine ⟨0x5#4, 0x00001000#32, 0#32, []⟩ .destructive 0 1 0x001000 [.bytes [x, x, x, x]] s1Idle))).map
    (fun t => (t.trace.getLast?.map Event.frame, t.lastStatus)) = some (some [0x20#8, 0x00#8, 0x10#8, 0x00#8], .ok) := by decide
theorem test_eraseBulk : (nextOf (step (entry reqBulk [] s1Idle))).map
    (fun t => (t.pos.line, t.wstate, t.trace)) = some (.waitIdle, .idle, s1Idle.trace) := by decide
/-- V7: 240 + 17 > 256. -/
theorem test_pageProgram_crosses : (nextOf (step (entry ⟨0x7#4, 0x000000F0#32, 0#32, List.replicate 17 0x00#8⟩ [] s1))).map
    (fun t => t.lastStatus) = some .invalidArgument := by decide
theorem test_pageProgram :
    (nextOf (step (atLine ⟨0x7#4, 0x00000010#32, 0#32, [0x55#8]⟩ .destructive 0 1 0x10 [.bytes [x, x, x, x, x]] s1Idle))).map
    (fun t => t.trace.getLast?.map Event.frame) = some (some [0x02#8, 0x10#8, 0x00#8, 0x00#8, 0x55#8]) := by decide
/-- V14: 2^32 + 8 does not wrap. -/
theorem test_read_exact : (nextOf (step (entry ⟨0x8#4, 0x00000010#32, 0xFFFFFFF8#32, []⟩ [] s1Idle))).map
    (fun t => t.lastStatus) = some .invalidArgument := by decide
theorem test_read : (nextOf (step (atLine reqRead .sendRead 0 1 0x100 [.bytes [x, x, x, x, 0x12#8, 0x34#8]] s1Idle))).map
    (fun t => (t.rbuf, t.responses)) = some ([0x12#8, 0x34#8], [⟨.ok, .read [0x12#8, 0x34#8]⟩]) := by decide
/-- V8: L = 0 gives no frame at all, and OK. -/
theorem test_program_empty : (nextOf (step (entry ⟨0x9#4, 0#32, 0#32, []⟩ [] s1))).map
    (fun t => (t.seqState, t.lastStatus, t.trace)) = some (.ready, .ok, [idEvent]) := by decide
/-- V8: L = 1 begins with SE 0; its write step is number 0 of 1. -/
theorem test_program : (nextOf (step (entry reqProgram [] s1))).map
    (fun t => (t.pos, t.work.n, t.work.a)) = some (⟨.waitIdle, .erase⟩, 1, 0) := by decide
/-- V11: one byte that differs. -/
theorem test_verify : (nextOf (step (atLine reqVerify .sendRead 0 1 0 [.bytes [x, x, x, x, 0x4A#8]] s1Idle))).map
    (fun t => (t.verify, t.lastStatus)) = some (⟨true, false, true, 0#32, [0x4A#8], [0x5A#8]⟩, .ok) := by decide
/-- V11: NotResolved leaves VERIFY_VALID = 0. -/
theorem test_verify_unresolved : (nextOf (step (entry reqVerify [] { State.reset with verify := ⟨true, true, false, 0#32, [], []⟩ }))).map
    (fun t => (t.verify.valid, t.lastStatus)) = some (false, .notResolved) := by decide

/-! ## Placing, the status view, the syntax, the chip -/

theorem test_withFetchWord :
    (nextOf (step (State.reset.withFetchWord 8 0x06))).map (fun t => (t.cs, t.pos.line)) = some (true, .sendWren) ∧
    (nextOf (step (State.reset.withFetchWord 4 0x2))).map (fun t => t.lastStatus) = some .notResolved ∧
    (nextOf (step (State.reset.withFetchWord 4 0xF))).map (fun t => t.lastStatus) = some .invalidRequest := by decide
/-- V13. -/
theorem test_view : statusView 0 .wstate State.reset = .ok (.num 0) ∧ statusView 0 .geomSectorLen State.reset = .error (.noValue .geomSectorLen) ∧
    statusView 0 .geomFamily s1 = .ok (.num 0) ∧ statusView 0 .lastPoll State.reset = .error (.noValue .lastPoll) := by
  refine ⟨rfl, rfl, rfl, rfl⟩
theorem test_text : parseLine "READ 0x000100, 5 ; a read" = some (.read 0x00000100#32 5#32) ∧
    lineText (.eraseSector 0x00010000#32) = "ERASE_SECTOR 65536" := by decide
/-- R69: programming clears bits and sets none. -/
theorem test_chip_program :
    ((⟨0x20#8, 0xBA#8, 0x0A#8, [], 256, none, ⟨true, [(5, 0x0F#8)]⟩, true, 0, false⟩ : Chip).serve { busy := 0, bytes := [] }
      [0x02#8, 0x05#8, 0x00#8, 0x00#8, 0x3C#8]).2.flash.read 5 = some 0x0C#8 := by decide

/-! ## Witnesses: states and operands that meet the obligations' hypotheses -/

/-- The invariant, as one check. -/
def invCheck (s : State) : Bool :=
  s.cfg.wf && (decide (s.seqState = .exec) || !s.cs) && (!s.geom.valid || geomLegal s) &&
    (s.geom.valid || (decide (s.wstate = .unknown) && decide (s.warn = false))) && verifyLegal s &&
    s.req.fits && s.hostQ.all Request.fits && decide (s.rbuf.length ≤ addrLimit) && (decide (s.seqState = .ready) || positionOk s) &&
    (!decide (s.wstate = .idle) || idleRests s) && traceOrdered s.trace && traceFits s

theorem inv_of_check {s : State} (h : invCheck s = true) : Inv s := by
  simp only [invCheck, Bool.and_eq_true, Bool.or_eq_true, Bool.not_eq_true', decide_eq_true_eq, decide_eq_false_iff_not] at h
  obtain ⟨⟨⟨⟨⟨⟨⟨⟨⟨⟨⟨h1, h2⟩, h3⟩, h4⟩, h5⟩, hl⟩, hh⟩, h6⟩, h7⟩, h8⟩, h9⟩, h10⟩ := h
  constructor
  · exact h1
  · intro hr; rcases h2 with h | h
    · rw [hr] at h; exact absurd h (by decide)
    · exact h
  · intro hv; rcases h3 with h | h
    · rw [hv] at h; exact absurd h (by decide)
    · exact h
  · intro hv; rcases h4 with h | h
    · rw [hv] at h; exact absurd h (by decide)
    · exact h
  · exact h5
  · exact hl
  · exact hh
  · exact h6
  · intro hr; rcases h7 with h | h
    · rw [hr] at h; exact absurd h (by decide)
    · exact h
  · intro hi; rcases h8 with h | h
    · exact absurd hi h
    · exact h
  · exact h9
  · exact h10

theorem inv_s1 : Inv s1 := inv_of_check (by decide)
theorem inv_s1Idle : Inv s1Idle := inv_of_check (by decide)

/-- The bounds of the address clauses. -/
theorem witness_address : (0 : Nat) < 2 ^ 24 ∧ 16777215 < 2 ^ 24 ∧ 2 ^ 24 ≤ 16777216 ∧
    codecEncode 0x03#8 (some 16777215) [x] = some [0x03#8, 0xFF#8, 0xFF#8, 0xFF#8, x] ∧
    codecEncode 0xD8#8 (some 16777216) [] = none ∧ [x].length ≤ 1 := by decide

/-- Well-formed instructions at the ends of their operands' ranges. -/
theorem witness_wf :
    Instr.wf Config.default (.rdid 3) = true ∧ (∃ d, d.length = 256 ∧ Instr.wf Config.default (.pp 0xFFFF00 d) = true) ∧
    Instr.wf Config.default (.pp 0xFF [x]) = true ∧ Instr.wf Config.default (.se 16777215) = true ∧
    Instr.wf Config.default (.sse 16777215) = true ∧ Instr.wf Config.default (.readData 0xFFF800 2048) = true ∧
    Instr.wf Config.default (.readData 16777215 1) = true ∧ Instr.wf Config.default (.pageProgram 0xFFFFFFFF#32 []) = true := by
  refine ⟨rfl, ?_, rfl, rfl, rfl, rfl, rfl, rfl⟩
  exact (exists_length 256).imp (fun d h => ⟨h, by simp [Instr.wf, ppOperandsOk, h, addrLimit, pageLen]⟩)

/-- Frames of every format decode, the shortest and the longest payload among them. -/
theorem witness_frames :
    decodeFrame [0xC7#8] = .ok .be ∧ decodeFrame [0x05#8, 0x00#8] = .ok .rdsr ∧ decodeFrame [0x20#8, 0x00#8, 0x10#8, 0x00#8] = .ok (.sse 4096) ∧
    decodeFrame [0x9F#8, 0x00#8, 0x00#8, 0x00#8] = .ok (.rdid 3) ∧ decodeFrame [0x03#8, 0x00#8, 0x00#8, 0x00#8, 0x00#8] = .ok (.readData 0 1) ∧
    decodeFrame [0x02#8, 0x00#8, 0x00#8, 0x00#8, x] = .ok (.pp 0 [x]) ∧
    ∃ d, d.length = 256 ∧ decodeFrame (0x02#8 :: 0x00#8 :: 0x00#8 :: 0x00#8 :: d) = .ok (.pp 0 d) := by
  refine ⟨rfl, rfl, rfl, rfl, rfl, rfl, ?_⟩
  exact (exists_length 256).imp (fun d h =>
    ⟨h, by simp [decodeFrame, decodeAddressed, decodePayload, opRDID, opRDSR, opRFSR, opWREN, opPP, addrOf, h]⟩)

/-- IgnoredRequestFieldsUnread: two requests that differ in every field their kind ignores. -/
theorem witness_ignored : ∃ (r q : Request) (s t : State), r ≠ q ∧ r.kind = q.kind ∧
    (r.kind ∈ [4#4, 5#4, 7#4, 8#4] → r.addr = q.addr) ∧ (r.kind = 8#4 → r.len = q.len) ∧
    (r.kind ∈ [7#4, 9#4, 10#4] → r.data = q.data) ∧ s.seqState = .exec ∧ s.req = r ∧ step s = .next t := by
  obtain ⟨t, h, -⟩ := exists_next (o := step (entry ⟨8#4, 1#32, 2#32, []⟩ [] s1)) (g := fun _ => ()) (v := ()) (by decide)
  exact ⟨⟨8#4, 1#32, 2#32, []⟩, ⟨8#4, 1#32, 2#32, [x]⟩, _, t, by decide, rfl, by decide, by decide, by decide, rfl, rfl, h⟩

theorem witness_reservedKind : ∃ s : State, s.cfg.wf = true ∧ s.seqState = .exec ∧ s.req.kind = 0xF#4 :=
  ⟨entry ⟨0xF#4, 0#32, 0#32, []⟩ [] s1, by decide⟩

/-- RequestsAcceptedOneAtATime: the three clauses. -/
theorem witness_accept :
    (s1.cfg.wf = true ∧ s1.seqState = .ready ∧ s1.hostQ = []) ∧
    (∃ s : State, s.cfg.wf = true ∧ s.seqState = .ready ∧ s.hostQ = [reqPoll, reqWait]) ∧
    (∃ s t : State, s.cfg.wf = true ∧ s.seqState = .exec ∧ s.hostQ = [reqWait] ∧ step s = .next t) := by
  refine ⟨by decide, ⟨{ s1 with hostQ := [reqPoll, reqWait] }, by decide⟩, ?_⟩
  obtain ⟨t, h, -⟩ := exists_next (o := step { entry reqPoll [] s1 with hostQ := [reqWait] }) (g := fun _ => ()) (v := ()) (by decide)
  exact ⟨{ entry reqPoll [] s1 with hostQ := [reqWait] }, t, by decide, rfl, rfl, h⟩

theorem latched_poll (as : List Answer) : Latched .poll (entry reqPoll as s1) := ⟨test_wf_config_default, rfl, rfl⟩

theorem witness_latched : Latched .poll (entry reqPoll [] s1) ∧ (entry reqPoll [] s1).pos.line = .entry := ⟨latched_poll [], rfl⟩

/-- A state at a frame line: the destructive frame of ERASE_BULK, with WEN behind it. -/
def atBulk (as : List Answer) : State :=
  atLine reqBulk .destructive 0 1 0 as
    { s1Idle with trace := s1Idle.trace ++ [{ frame := [0x06#8], answer := .bytes [x] }] }

theorem latched_bulk (as : List Answer) : Latched .eraseBulk (atBulk as) := ⟨test_wf_config_default, rfl, rfl⟩

/-- StepRunsFrameAtPosition, FailedTransferEndsRequest, UnansweredFrameWaits. -/
theorem witness_frameLine :
    (∃ s : State, Latched .eraseBulk s ∧ s.pos.line ≠ .entry ∧ lineInstr .eraseBulk s = some .be ∧ encodeFrame .be = some [0xC7#8] ∧
      Instr.wf s.cfg .be = true ∧ s.answers = [.bytes [x]]) ∧
    (∃ s : State, Latched .eraseBulk s ∧ s.pos.line ≠ .entry ∧ lineInstr .eraseBulk s = some .be ∧ s.answers = [.fail] ∧
      ∀ r, Answer.fail = .bytes r → r.length ≠ 1) ∧
    (∃ s : State, Latched .eraseBulk s ∧ s.pos.line ≠ .entry ∧ lineInstr .eraseBulk s = some .be ∧ s.answers = [.bytes [x, x]] ∧
      ∀ r, Answer.bytes [x, x] = .bytes r → r.length ≠ 1) ∧
    (∃ s : State, Latched .eraseBulk s ∧ s.pos.line ≠ .entry ∧ lineInstr .eraseBulk s = some .be ∧ s.answers = []) :=
  ⟨⟨atBulk [.bytes [x]], latched_bulk _, by decide, rfl, rfl, rfl, rfl⟩,
   ⟨atBulk [.fail], latched_bulk _, by decide, rfl, rfl, by simp⟩,
   ⟨atBulk [.bytes [x, x]], latched_bulk _, by decide, rfl, rfl, by rintro r ⟨⟩; decide⟩,
   ⟨atBulk [], latched_bulk _, by decide, rfl, rfl⟩⟩

/-- PlacedInstructionRuns: a request, and a wire command. -/
theorem witness_placed : s1.cfg.wf = true ∧ Instr.wf s1.cfg .poll = true ∧ Instr.isWire .poll = false ∧ decodeTableWord 4 0x2 = some .poll ∧
    Instr.wf s1.cfg (.readData 0 1) = true ∧ Instr.isWire (.readData 0 1) = true ∧ decodeTableWord 8 0x03 = some (.readData 0 1) := by
  decide

/-- PlainFramesComplete and DestructiveFramesComplete: an answer of each frame's length. -/
theorem witness_answered :
    (∃ s : State, s.answers = [.bytes [x, 0x20#8, 0xBA#8, 0x16#8]] ∧
      [x, 0x20#8, 0xBA#8, 0x16#8].length = (0x9F#8 :: List.replicate 3 0x00#8).length) ∧
    (∃ s : State, s.answers = [.bytes [x, x]] ∧ [x, x].length = [0x05#8, 0x00#8].length ∧ [x, x].length = [0x70#8, 0x00#8].length) ∧
    (∃ s : State, s.answers = [.bytes [x]] ∧ [x].length = [0x06#8].length ∧ [x].length = [0xC7#8].length) ∧
    (∃ s : State, s.answers = [.bytes [x, x, x, x, x]] ∧ [x, x, x, x, x].length = ([0x03#8] ++ le24 16777215 ++ List.replicate 1 0x00#8).length ∧
      [x, x, x, x, x].length = ([0x02#8] ++ le24 16777215 ++ [x]).length) ∧
    (∃ s : State, s.answers = [.bytes [x, x, x, x]] ∧ [x, x, x, x].length = ([0xD8#8] ++ le24 0).length ∧
      [x, x, x, x].length = ([0x20#8] ++ le24 16777215).length) := by
  refine ⟨⟨{ s1 with answers := _ }, rfl, rfl⟩, ⟨{ s1 with answers := _ }, rfl, rfl, rfl⟩, ⟨{ s1 with answers := _ }, rfl, rfl, rfl⟩,
    ⟨{ s1 with answers := _ }, rfl, rfl, rfl⟩, ⟨{ s1 with answers := _ }, rfl, rfl, rfl⟩⟩

/-- SkippedBytesUnread: two answers that differ in skipped bytes only, to a status frame, and to an ignored response. -/
theorem witness_skipped :
    (∃ s t1 t2 : State, Latched .poll s ∧ s.pos.line ≠ .entry ∧ lineInstr .poll s = some .rfsr ∧
      encodeFrame .rfsr = some [0x70#8, 0x00#8] ∧
      step { s with answers := [.bytes [0x00#8, 0x80#8]] } = .next t1 ∧ step { s with answers := [.bytes [0xFF#8, 0x80#8]] } = .next t2) ∧
    (∃ s t1 t2 : State, Latched .eraseBulk s ∧ s.pos.line ≠ .entry ∧ lineInstr .eraseBulk s = some .be ∧
      step { s with answers := [.bytes [0x00#8]] } = .next t1 ∧ step { s with answers := [.bytes [0xFF#8]] } = .next t2) := by
  constructor
  · refine ⟨atLine reqPoll .pollOnce 0 0 0 [] s1, ?_⟩
    obtain ⟨t1, h1, -⟩ := exists_next (o := step (atLine reqPoll .pollOnce 0 0 0 [.bytes [0x00#8, 0x80#8]] s1)) (g := fun _ => ()) (v := ()) (by decide)
    obtain ⟨t2, h2, -⟩ := exists_next (o := step (atLine reqPoll .pollOnce 0 0 0 [.bytes [0xFF#8, 0x80#8]] s1)) (g := fun _ => ()) (v := ()) (by decide)
    exact ⟨t1, t2, ⟨by decide, rfl, rfl⟩, by decide, rfl, rfl, h1, h2⟩
  · refine ⟨atBulk [], ?_⟩
    obtain ⟨t1, h1, -⟩ := exists_next (o := step (atBulk [.bytes [0x00#8]])) (g := fun _ => ()) (v := ()) (by decide)
    obtain ⟨t2, h2, -⟩ := exists_next (o := step (atBulk [.bytes [0xFF#8]])) (g := fun _ => ()) (v := ()) (by decide)
    exact ⟨t1, t2, latched_bulk _, by decide, rfl, h1, h2⟩

theorem witness_errorKinds :
    (ErrKind.transportFailure, Status.transportFailure) ∈ [(ErrKind.invalidArgument, Status.invalidArgument),
      (.transportFailure, .transportFailure), (.notResolved, .notResolved), (.invalidState, .invalidState), (.invalidRequest, .invalidRequest)] := by
  decide

theorem witness_unresolved : State.reset.geom.valid = false ∧ Instr.isWire (.verify []) = false ∧ Instr.verify [] ≠ .identify := by decide

theorem witness_resolved : s1.geom.valid = true := rfl

/-- InvalidArgumentsRejected: each line of the table at its bound, and operands just inside. -/
theorem witness_arguments :
    s1.geom.valid = true ∧
    argumentInvalid s1.geom (.eraseSector 0x01000000#32) ∧ ¬ argumentInvalid s1.geom (.eraseSector 0x00FF0000#32) ∧
    argumentInvalid s1.geom (.eraseSubsector 0x00000FFF#32) ∧ ¬ argumentInvalid s1.geom (.eraseSubsector 0x00FFF000#32) ∧
    argumentInvalid { s1.geom with subValid := false } (.eraseSubsector 0#32) ∧
    argumentInvalid s1.geom (.pageProgram 0#32 []) ∧ argumentInvalid s1.geom (.pageProgram 0xFF#32 [x, x]) ∧
    ¬ argumentInvalid s1.geom (.pageProgram 0xFF#32 [x]) ∧
    argumentInvalid s1.geom (.read 0x00FFFFFF#32 2#32) ∧ ¬ argumentInvalid s1.geom (.read 0x00FFFFFF#32 1#32) ∧
    (∃ d, argumentInvalid s1.geom (.program d)) ∧ (∃ d, d.length = 16777216 ∧ ¬ argumentInvalid s1.geom (.verify d)) := by
  refine ⟨rfl, ?_, ?_, ?_, ?_, ?_, ?_, ?_, ?_, ?_, ?_, ?_, ?_⟩
  all_goals try (simp only [argumentInvalid]; decide)
  · exact (exists_length 16777217).imp (fun d h => by simp only [argumentInvalid, h]; omega)
  · exact (exists_length 16777216).imp (fun d h => ⟨h, by simp only [argumentInvalid, h]; omega⟩)

/-- EarlyErrorsSendNoFrame: an early error, and an end at a frame line. -/
theorem witness_early :
    (∃ s t r, Inv s ∧ step s = .next t ∧ t.responses = s.responses ++ [r] ∧ r.status = Status.invalidArgument) ∧
    (∃ s t r, Inv s ∧ step s = .next t ∧ t.responses = s.responses ++ [r] ∧ s.pos.line ≠ .entry) := by
  constructor
  · obtain ⟨t, h, e⟩ := exists_next (o := step (entry ⟨0x4#4, 0x00001000#32, 0#32, []⟩ [] s1)) (g := fun t => t.responses)
      (v := [⟨.invalidArgument, .none⟩]) (by decide)
    exact ⟨_, t, _, inv_of_check (by decide), h, e, rfl⟩
  · obtain ⟨t, h, e⟩ := exists_next (o := step (atBulk [.bytes [x]])) (g := fun t => t.responses) (v := [⟨.ok, .none⟩]) (by decide)
    exact ⟨_, t, _, inv_of_check (by decide), h, e, by decide⟩

/-- RequestEntryFrame. -/
theorem witness_entry : ∃ t, Instr.isWire .eraseBulk = false ∧ exec .eraseBulk s1 = .next t := ⟨_, rfl, rfl⟩

theorem witness_identify :
    (∃ s : State, Latched .identify s ∧ s.geom.valid = false ∧ ([] : Bytes).length = s.cfg.uidLen ∧
      s.answers = [.bytes [x, 0x20#8, 0xBA#8, 0x16#8]] ∧ ∃ e ∈ s.cfg.geomTable, e.mfr = 0x20#8 ∧ e.type = 0xBA#8) ∧
    (∀ e ∈ Config.default.geomTable, ¬ (e.mfr = 0xEF#8 ∧ e.type = 0xBA#8)) := by
  refine ⟨⟨entry reqIdentify [.bytes [x, 0x20#8, 0xBA#8, 0x16#8]] State.reset, ⟨by decide, rfl, rfl⟩, rfl, rfl, rfl, ?_⟩, by decide⟩
  exact ⟨n25qEntry, by decide, rfl, rfl⟩

theorem witness_resolve : distinctKeys Config.default.geomTable = true := by decide

theorem witness_poll : ∃ s : State, Latched .poll s ∧ s.geom.valid = true ∧ s.answers = [.bytes [x, 0x80#8]] :=
  ⟨entry reqPoll [idleF] s1, latched_poll _, rfl, rfl⟩

/-- A wait with one busy poll, and the least write step. -/
def waitScript : WaitScript := ⟨[(x, 0x00#8)], x, 0x80#8⟩
def writeScript (n : Nat) : WriteScript := ⟨waitScript, x, List.replicate n x⟩

theorem witness_waitIdle : ∃ s : State, Latched .waitIdle s ∧ s.geom.valid = true ∧ waitScript.fits s.geom.busy = true ∧
    s.answers = waitScript.answers ++ [] :=
  ⟨entry reqWait waitScript.answers s1, ⟨by decide, rfl, rfl⟩, rfl, by decide, rfl⟩

theorem witness_eraseSector : ∃ (s : State) (a : BitVec 32), Latched (.eraseSector a) s ∧ s.geom.valid = true ∧ a.toNat < 2 ^ 24 ∧
    a.toNat % s.geom.sectorLen.toNat = 0 ∧ (writeScript 4).fits s.geom.busy ([0xD8#8] ++ le24 a.toNat) = true ∧
    s.answers = (writeScript 4).answers ++ [] :=
  ⟨entry ⟨0x4#4, 0x00FF0000#32, 0#32, []⟩ (writeScript 4).answers s1, 0x00FF0000#32, ⟨by decide, rfl, rfl⟩, by decide⟩

theorem witness_eraseSubsector : ∃ (s : State) (a : BitVec 32), Latched (.eraseSubsector a) s ∧ s.geom.valid = true ∧
    s.geom.subValid = true ∧ a.toNat < 2 ^ 24 ∧ a.toNat % s.geom.subLen.toNat = 0 ∧
    (writeScript 4).fits s.geom.busy ([0x20#8] ++ le24 a.toNat) = true ∧ s.answers = (writeScript 4).answers ++ [] :=
  ⟨entry ⟨0x5#4, 0x00FFF000#32, 0#32, []⟩ (writeScript 4).answers s1, 0x00FFF000#32, ⟨by decide, rfl, rfl⟩, by decide⟩

theorem witness_eraseBulk : ∃ s : State, Latched .eraseBulk s ∧ s.geom.valid = true ∧ (writeScript 1).fits s.geom.busy [0xC7#8] = true ∧
    s.answers = (writeScript 1).answers ++ [] :=
  ⟨entry reqBulk (writeScript 1).answers s1, ⟨by decide, rfl, rfl⟩, by decide⟩

theorem witness_pageProgram : ∃ (s : State) (a : BitVec 32), Latched (.pageProgram a [x]) s ∧ s.geom.valid = true ∧ 1 ≤ [x].length ∧
    a.toNat < 2 ^ 24 ∧ a.toNat % 256 + [x].length ≤ 256 ∧
    (writeScript 5).fits s.geom.busy ([0x02#8] ++ le24 a.toNat ++ [x]) = true ∧ s.answers = (writeScript 5).answers ++ [] :=
  ⟨entry ⟨0x7#4, 0x00FFFFFF#32, 0#32, [x]⟩ (writeScript 5).answers s1, 0x00FFFFFF#32, ⟨by decide, rfl, rfl⟩, by decide⟩

/-- ProgramCompletes: an empty image, and one byte, which takes two write steps. -/
theorem witness_program :
    (∃ s : State, Latched (.program []) s ∧ s.geom.valid = true ∧ s.geom.sectorLen.toNat ≠ 0) ∧
    (∃ s : State, Latched (.program [0x5A#8]) s ∧ s.geom.valid = true ∧ s.geom.sectorLen.toNat ≠ 0 ∧
      ([writeScript 4] ++ [writeScript 5]).length = (imageFrames s.cfg s.geom [0x5A#8]).length ∧
      (∀ p ∈ ([writeScript 4] ++ [writeScript 5]).zip (imageFrames s.cfg s.geom [0x5A#8]), p.1.fits s.geom.busy p.2 = true) ∧
      s.answers = ([writeScript 4] ++ [writeScript 5]).flatMap WriteScript.answers ++ []) :=
  ⟨⟨entry ⟨0x9#4, 0#32, 0#32, []⟩ [] s1, ⟨by decide, rfl, rfl⟩, by decide⟩,
   ⟨entry reqProgram ((writeScript 4).answers ++ (writeScript 5).answers) s1, ⟨by decide, rfl, rfl⟩, by decide⟩⟩

/-- ReadCompletes: no byte; two bytes from an idle chip; two bytes after a wait. -/
theorem witness_read :
    (∃ s : State, Latched (.read 0x00FFFFFF#32 0#32) s ∧ s.geom.valid = true) ∧
    (∃ s : State, Latched (.read 0x100#32 2#32) s ∧ s.geom.valid = true ∧ EnsureFits s none ∧
      lengthsFit (chunkFrames s.cfg 0x100 2) [[x, x, x, x, 0x12#8, 0x34#8]] = true ∧
      s.answers = ensureAnswers none ++ [[x, x, x, x, 0x12#8, 0x34#8]].map Answer.bytes ++ []) ∧
    (∃ s : State, Latched (.read 0x100#32 2#32) s ∧ s.geom.valid = true ∧ EnsureFits s (some waitScript) ∧
      s.answers = ensureAnswers (some waitScript) ++ [[x, x, x, x, 0x12#8, 0x34#8]].map Answer.bytes ++ []) :=
  ⟨⟨entry ⟨0x8#4, 0x00FFFFFF#32, 0#32, []⟩ [] s1, ⟨by decide, rfl, rfl⟩, rfl⟩,
   ⟨entry reqRead [.bytes [x, x, x, x, 0x12#8, 0x34#8]] s1Idle, ⟨by decide, rfl, rfl⟩, rfl, rfl, by decide, rfl⟩,
   ⟨entry reqRead (waitScript.answers ++ [.bytes [x, x, x, x, 0x12#8, 0x34#8]]) s1, ⟨by decide, rfl, rfl⟩, rfl, ⟨by decide, by decide⟩, rfl⟩⟩

/-- VerifyCompletes: an empty reference; an equal one; a differing one. -/
theorem witness_verify :
    (∃ s : State, Latched (.verify []) s ∧ s.geom.valid = true) ∧
    (∃ s : State, Latched (.verify [0x5A#8]) s ∧ s.geom.valid = true ∧ EnsureFits s none ∧
      lengthsFit (chunkFrames s.cfg 0 1) [[x, x, x, x, 0x5A#8]] = true ∧ chunkData [[x, x, x, x, 0x5A#8]] = [0x5A#8] ∧
      s.answers = ensureAnswers none ++ [[x, x, x, x, 0x5A#8]].map Answer.bytes ++ []) ∧
    chunkData [[x, x, x, x, 0x4A#8]] ≠ [0x5A#8] :=
  ⟨⟨entry ⟨0xA#4, 0#32, 0#32, []⟩ [] s1, ⟨by decide, rfl, rfl⟩, rfl⟩,
   ⟨entry reqVerify [.bytes [x, x, x, x, 0x5A#8]] s1Idle, ⟨by decide, rfl, rfl⟩, rfl, rfl, by decide, by decide, rfl⟩, by decide⟩

theorem witness_compare : [x, 0x00#8].length = [x, 0x01#8].length ∧ compareBytes [x, 0x00#8] [x, 0x01#8] = some 1 := by decide

/-- Steps that change WSTATE in each way, from states with the invariant; none for the step that sends no frame. -/
theorem witness_transitions :
    (∃ s t e, Inv s ∧ step s = .next t ∧ t.trace = s.trace ++ [e] ∧ e.answered = false) ∧
    (∃ s t e, Inv s ∧ step s = .next t ∧ t.trace = s.trace ++ [e] ∧ e.answered = true ∧ e.reportsIdle = true) ∧
    (∃ s t e, Inv s ∧ step s = .next t ∧ t.trace = s.trace ++ [e] ∧ e.answered = true ∧ e.frame = [0xC7#8]) ∧
    (∃ s t, Inv s ∧ step s = .next t ∧ t.trace = s.trace) := by
  refine ⟨?_, ?_, ?_, ?_⟩
  · obtain ⟨t, h, e⟩ := exists_next (o := step (atBulk [.fail])) (g := fun t => t.trace) (v := (atBulk [.fail]).trace ++ [⟨[0xC7#8], .fail⟩]) (by decide)
    exact ⟨_, t, _, inv_of_check (by decide), h, e, by decide⟩
  · obtain ⟨t, h, e⟩ := exists_next (o := step (atLine reqPoll .pollOnce 0 0 0 [idleF] s1)) (g := fun t => t.trace)
      (v := s1.trace ++ [⟨[0x70#8, 0x00#8], idleF⟩]) (by decide)
    exact ⟨_, t, _, inv_of_check (by decide), h, e, by decide, by decide⟩
  · obtain ⟨t, h, e⟩ := exists_next (o := step (atBulk [.bytes [x]])) (g := fun t => t.trace)
      (v := (atBulk [.bytes [x]]).trace ++ [⟨[0xC7#8], .bytes [x]⟩]) (by decide)
    exact ⟨_, t, _, inv_of_check (by decide), h, e, by decide, rfl⟩
  · exact ⟨s1, _, inv_s1, rfl, rfl⟩

/-- GeometryImmutable, StepKeepsInvariant, StepAlwaysGoesOn, RegistersWrittenByTheirWriters, OneResponsePerRequest. -/
theorem witness_step : ∃ s t : State, Inv s ∧ s.geom.valid = true ∧ step s = .next t ∧ t.verify ≠ s.verify ∧ t.rbuf ≠ s.rbuf := by
  obtain ⟨t, h, e⟩ := exists_next (o := step (atLine reqVerify .sendRead 0 1 0 [.bytes [x, x, x, x, 0x5A#8]] s1Idle))
    (g := fun t => (t.verify.valid, t.rbuf)) (v := (true, [0x5A#8])) (by decide)
  obtain ⟨e1, e2⟩ := Prod.mk.inj e
  exact ⟨_, t, inv_of_check (by decide), rfl, h, fun hv => by rw [hv] at e1; exact absurd e1 (by decide),
    fun hr => by rw [hr] at e2; exact absurd e2 (by decide)⟩

/-- RegistersWrittenByTheirWriters: IDENTIFY's step writes the identification registers, POLL's step LAST_POLL. -/
theorem witness_writers :
    (∃ s t : State, step s = .next t ∧ t.geom ≠ s.geom ∧ t.lastStatus = s.lastStatus) ∧
    (∃ s t : State, step s = .next t ∧ t.poll ≠ s.poll) ∧ (∃ s t : State, step s = .next t ∧ t.req ≠ s.req) ∧
    (∃ s t : State, step s = .next t ∧ t.lastStatus ≠ s.lastStatus) := by
  refine ⟨?_, ?_, ?_, ?_⟩
  · obtain ⟨t, h, e⟩ := exists_next (o := step (atLine reqIdentify .sendRdid 0 0 0 [.bytes [x, 0x20#8, 0xBA#8, 0x16#8]] State.reset))
      (g := fun t => (t.geom.valid, t.lastStatus)) (v := (true, .ok)) (by decide)
    obtain ⟨e1, e2⟩ := Prod.mk.inj e
    exact ⟨_, t, h, fun hv => by rw [hv] at e1; exact absurd e1 (by decide), e2⟩
  · obtain ⟨t, h, e⟩ := exists_next (o := step (atLine reqPoll .pollOnce 0 0 0 [idleF] s1)) (g := fun t => t.poll.value) (v := 0x80#8) (by decide)
    exact ⟨_, t, h, fun hv => by rw [hv] at e; exact absurd e (by decide)⟩
  · exact ⟨{ s1 with hostQ := [reqPoll] }, _, rfl, by decide⟩
  · obtain ⟨t, h, e⟩ := exists_next (o := step (entry reqPoll [] State.reset)) (g := fun t => t.lastStatus) (v := .notResolved) (by decide)
    exact ⟨_, t, h, fun hv => by rw [hv] at e; exact absurd e (by decide)⟩

/-- ChipSelectOnlyInTransfer: a frame with no answer yet. -/
theorem witness_waiting : ∃ s t : State, Inv s ∧ step s = .next t ∧ t.cs = true := by
  obtain ⟨t, h, e⟩ := exists_next (o := step (atBulk [])) (g := fun t => t.cs) (v := true) (by decide)
  exact ⟨_, t, inv_of_check (by decide), h, e⟩

theorem witness_reset : Config.default.wf = true ∧ ∃ t, s1.resetEvent = .next t := ⟨by decide, _, rfl⟩

/-- Both cases of the reset event; the second is the frame that waits. -/
theorem witness_resetEvent : s1.cs = false ∧ ({ atBulk [] with cs := true } : State).cs = true := ⟨rfl, rfl⟩

theorem reachable_offers {c : Config} (rs : List Request) {s : State} (h : Reachable c s) : Reachable c (rs.foldl State.offer s) := by
  induction rs generalizing s with
  | nil => exact h
  | cons r rs ih => exact ih (.move h (.host s r))

theorem reachable_supplies {c : Config} (as : List Answer) {s : State} (h : Reachable c s) : Reachable c (as.foldl State.supply s) := by
  induction as generalizing s with
  | nil => exact h
  | cons a as ih => exact ih (.move h (.transport s a))

theorem reachable_run {c : Config} (n : Nat) {s t : State} (h : Reachable c s) (hr : Host.Core.run Sys2Proof.core n s = .next t) :
    Reachable c t := by
  induction n generalizing s with
  | zero => cases hr; exact h
  | succ n ih =>
    simp only [Host.Core.run] at hr
    cases hs : Sys2Proof.core.step s with
    | next u => rw [hs] at hr; exact ih (.move h (.block hs)) hr
    | fault _ => rw [hs] at hr; exact absurd hr (by simp)
    | refused _ => rw [hs] at hr; exact absurd hr (by simp)

/-- IDENTIFY and ERASE_BULK offered at reset, with the four answers they take. -/
def bulkRun : State :=
  [.bytes [x, 0x20#8, 0xBA#8, 0x16#8], idleF, .bytes [x], .bytes [x]].foldl State.supply ([reqIdentify, reqBulk].foldl State.offer State.reset)

/-- WriteEnablePrecedesEveryDestructiveFrame: a reachable state with a BE frame in TRACE. -/
theorem witness_reachable : ∃ (s : State) (older : List Event) (e : Event), Reachable Config.default s ∧ s.trace = older ++ e :: [] ∧
    decodeFrame e.frame = .ok .be ∧ Instr.isDestructive .be = true := by
  obtain ⟨t, h, e⟩ := exists_next (o := Host.Core.run Sys2Proof.core 8 bulkRun) (g := fun t => t.trace)
    (v := [idEvent, ⟨[0x70#8, 0x00#8], idleF⟩, ⟨[0x06#8], .bytes [x]⟩] ++ [⟨[0xC7#8], .bytes [x]⟩]) (by decide)
  exact ⟨t, _, _, reachable_run 8 (reachable_supplies _ (reachable_offers _ .reset)) h, e, rfl, rfl⟩

/-- CommandsOnlyToAnIdleChip: a destructive frame, and RDID. -/
theorem witness_commands :
    (∃ s t e w, Inv s ∧ step s = .next t ∧ t.trace = s.trace ++ [e] ∧ decodeFrame e.frame = .ok w ∧ w.isDestructive = true) ∧
    (∃ s t e, Inv s ∧ step s = .next t ∧ t.trace = s.trace ++ [e] ∧ decodeFrame e.frame = .ok (.rdid 3)) := by
  constructor
  · obtain ⟨t, h, e⟩ := exists_next (o := step (atBulk [.bytes [x]])) (g := fun t => t.trace)
      (v := (atBulk [.bytes [x]]).trace ++ [⟨[0xC7#8], .bytes [x]⟩]) (by decide)
    exact ⟨_, t, _, .be, inv_of_check (by decide), h, e, rfl, rfl⟩
  · obtain ⟨t, h, e⟩ := exists_next (o := step (atLine reqIdentify .sendRdid 0 0 0 [.bytes [x, 0x20#8, 0xBA#8, 0x16#8]] State.reset))
      (g := fun t => t.trace) (v := [] ++ [idEvent]) (by decide)
    exact ⟨_, t, _, inv_of_check (by decide), h, e, rfl⟩

/-- BusyChipHangsRequest: two busy polls of WAIT_IDLE. -/
theorem witness_hang : ∃ s : State, Latched .waitIdle s ∧ s.pos.line = .waitIdle ∧ (waitRole .waitIdle).isSome = true ∧
    (∀ p ∈ [(x, 0x00#8), (x, 0x7F#8)], checkBusy s.geom.busy p.2 = .busy) ∧
    s.answers = [(x, 0x00#8), (x, 0x7F#8)].map (fun p => Answer.bytes [p.1, p.2]) ++ [] :=
  ⟨atLine reqWait .waitIdle 0 0 0 [.bytes [x, 0x00#8], .bytes [x, 0x7F#8]] s1, ⟨by decide, rfl, rfl⟩, rfl, rfl,
    by simp only [List.forall_mem_cons]; exact ⟨rfl, rfl, by simp⟩, rfl⟩

/-- IllFormedConfigurationRefused: a configuration for each clause, at the bounds of the lengths. -/
theorem witness_illFormed :
    (∃ c : Config, c.readChunk = 0) ∧
    (∀ n ∈ [0, 4294967296, 1000], ∃ c : Config, ∃ e ∈ c.geomTable, e.desc.sectorLen = n) ∧
    (∀ n ∈ [0, 4294967296, 1000], ∃ c : Config, ∃ e ∈ c.geomTable, e.desc.subsectorLen = some n) ∧
    (∃ c : Config, ∃ e ∈ c.geomTable, e.desc.family = .unknown) ∧
    (∃ c : Config, ∃ pre mid post e f, c.geomTable = pre ++ e :: mid ++ f :: post ∧ e.mfr = f.mfr ∧ e.type = f.type) :=
  ⟨⟨{ Config.default with readChunk := 0 }, rfl⟩,
   fun n _ => ⟨{ Config.default with geomTable := [⟨0x20#8, 0xBA#8, ⟨.familyA, n, none, .flag⟩⟩] }, _, List.mem_singleton.mpr rfl, rfl⟩,
   fun n _ => ⟨{ Config.default with geomTable := [⟨0x20#8, 0xBA#8, ⟨.familyA, 65536, some n, .flag⟩⟩] }, _, List.mem_singleton.mpr rfl, rfl⟩,
   ⟨{ Config.default with geomTable := [⟨0x20#8, 0xBA#8, ⟨.unknown, 65536, none, .flag⟩⟩] }, _, List.mem_singleton.mpr rfl, rfl⟩,
   ⟨{ Config.default with geomTable := [n25qEntry, n25qEntry] }, [], [], [], n25qEntry, n25qEntry, rfl, rfl, rfl⟩⟩

/-- S1 after a VERIFY that matched, and after one that did not. -/
def s1Matched : State := { s1Idle with verify := ⟨true, true, false, 0#32, [], []⟩ }
def s1Mismatch : State := { s1Idle with verify := ⟨true, false, true, 10#32, [x], [0x0A#8]⟩ }

/-- The status view's two cases, with and without values. -/
theorem witness_view : State.reset.seqState = .ready ∧ State.reset.geom.valid = false ∧ State.reset.verify.valid = false ∧
    s1.seqState = .ready ∧ s1.geom.valid = true ∧ s1.geom.subValid = true ∧ (entry reqPoll [] s1).seqState = .exec ∧
    s1.poll.valid = false ∧ s1Idle.poll.valid = true ∧ s1Mismatch.seqState = .ready ∧ s1Mismatch.verify.valid = true ∧
    s1Mismatch.verify.matched = false ∧ s1Mismatch.verify.offsetValid = true ∧ s1Matched.verify.valid = true ∧
    s1Matched.verify.matched = true ∧ s1Matched.verify.offsetValid = false ∧ invCheck s1Matched = true ∧ invCheck s1Mismatch = true := by
  decide
/-- V11, V13: the view after a match and after a mismatch. -/
theorem test_view_verify : statusView 0 .verifyOffset s1Matched = .error (.noValue .verifyOffset) ∧
    statusView 0 .verifyWinRead s1Matched = .error (.noValue .verifyWinRead) ∧ statusView 0 .verifyOffset s1Mismatch = .ok (.num 10) := by
  refine ⟨rfl, rfl, rfl⟩

theorem witness_chunks : 1 ≤ Config.default.readChunk ∧ 16777215 + 1 ≤ 2 ^ 24 ∧ 0 < chunkCount Config.default 1 := by decide

theorem witness_pages : 1 < pageCount 257 ∧ 1 + 1 = pageCount 257 ∧ 0 + 1 < pageCount 257 := by decide

theorem witness_sectors : s1.geom.sectorLen.toNat ≠ 0 ∧ 65537 ≤ 2 ^ 24 ∧ 65536 < 65537 ∧ 1 < sectorCount 65537 s1.geom := by decide

/-- A small reference chip as R64 has it at first: 1024 bytes, sectors of 256. -/
def chip0 : Chip := .initial 0x20#8 0xBA#8 0x0A#8 [] 256 (some 128)

/-- The same chip erased, with WEL set. -/
def chip : Chip := { chip0 with flash := chip0.flash.eraseAll, wel := true }

/-- R64: no value, WEL 0, BUSYLEFT 0. -/
theorem test_chip_initial : chip0.flash.read 0 = none ∧ chip0.flash.read 1023 = none ∧ chip0.wel = false ∧ chip0.busyLeft = 0 := by decide

/-- R162, U13: in a write cycle the answer to RDID is a draw; idle, it is the identity (R65). -/
theorem test_chip_rdid :
    (({ chip0 with busyLeft := 1 } : Chip).serve { busy := 0, bytes := [1#8, 2#8, 3#8, 4#8] } [0x9F#8, 0x00#8, 0x00#8, 0x00#8]).1 =
      [1#8, 2#8, 3#8, 4#8] ∧
    (chip0.serve { busy := 0, bytes := [x] } [0x9F#8, 0x00#8, 0x00#8, 0x00#8]).1 = [x, 0x20#8, 0xBA#8, 0x0A#8] := by decide

theorem witness_chip :
    chip.flash.wf = true ∧ chip.busyLeft = 0 ∧ chip.wel = true ∧ 0 < chip.sectorLen ∧ chip.subsectorLen = some 128 ∧ 1023 < chip.size ∧
    chip.flash.read 1023 = some 0xFF#8 ∧ ¬ (({ chip with busyLeft := 1 } : Chip).busyLeft = 0) := by decide

/-- The block resolved to that chip's sectors, with a PROGRAM and a VERIFY of one byte at hand. -/
def vapBlock : State :=
  { s1 with
    ident := { s1.ident with cap := 0x0A#8 }
    geom := { s1.geom with sectorLen := 256#32, subLen := 256#32 }
    hostQ := [⟨0x9#4, 0#32, 0#32, [0x5A#8]⟩, ⟨0xA#4, 0#32, 0#32, [0x5A#8]⟩] }

/-- VerifyAfterProgramMatches: a run of 12 steps that ends in the two responses. -/
theorem witness_verifyAfterProgram : ∃ (y z : System) (ds : List Draws) (r1 r2 : Response),
    Inv y.block ∧ y.block.seqState = .ready ∧ y.block.geom.valid = true ∧ y.chip.flash.wf = true ∧
    y.chip.sectorLen = y.block.geom.sectorLen.toNat ∧ [0x5A#8].length ≤ y.chip.size ∧
    y.block.hostQ = [⟨0x9#4, 0#32, 0#32, [0x5A#8]⟩, ⟨0xA#4, 0#32, 0#32, [0x5A#8]⟩] ∧
    y.run ds = .next z ∧ z.block.responses = y.block.responses ++ [r1, r2] := by
  obtain ⟨z, h, e⟩ := exists_next (o := System.run (List.replicate 12 { busy := 0, bytes := [] }) ⟨vapBlock, chip0⟩) (g := fun z => z.block.responses)
    (v := [⟨.ok, .none⟩, ⟨.ok, .verify none⟩]) (by decide +kernel)
  exact ⟨⟨vapBlock, chip0⟩, z, _, _, _, inv_of_check (by decide), rfl, rfl, rfl, rfl, by decide, rfl, h, e⟩

end Sys2Proof.Tests
end

/-! ## spec/00_scope.md: an unanswered frame waits; the moves of the host, the transport and reset keep the invariant -/

namespace Sys2Proof.Machine

/-! ### An unanswered frame (R13 step 2, U11) -/

/-- A wire command sent to a transport that does not answer asserts CS and does nothing else. -/
theorem exec_unanswered {s : State} {w : Instr} {f : Bytes} (hw : w.isWire = true) (hf : encodeFrame w = some f)
    (ha : s.answers = []) : exec w s = .next s.assertCs := by
  rw [exec_wire hw, hf]
  simp only [sendFrame, xfer_waiting f ha]

/-- While CS is asserted the request's lines do not go on. -/
theorem afterFrame_selected (i : Instr) {s : State} (h : s.cs = true) : afterFrame i s = s := if_pos (.inr h)

/-- Which frame stands at the position does not depend on CS. -/
@[simp] theorem lineInstr_assertCs (i : Instr) (s : State) : lineInstr i s.assertCs = lineInstr i s := rfl

/-- Asserting CS leaves the latched request in execution. -/
theorem Latched.assertCs {i : Instr} {s : State} (h : Latched i s) : Latched i s.assertCs :=
  ⟨h.config, h.executing, h.request⟩

/-- A step at a frame line whose frame is not answered asserts CS and does nothing else. -/
theorem step_unanswered {s : State} {i w : Instr} {f : Bytes} (h : Latched i s) (hl : s.pos.line ≠ .entry)
    (hw : lineInstr i s = some w) (hf : encodeFrame w = some f) (ha : s.answers = []) :
    step s = .next s.assertCs := by
  have hx : exec w s = .next s.assertCs := exec_unanswered (lineInstr_isWire hw) hf ha
  rw [step_frame h.config h.executing h.request hl hw hx, afterFrame_selected i s.assertCs_cs]

/-- Any number of further steps, one at least: the waiting state is a fixed point of the step. -/
theorem run_unanswered {s : State} {i w : Instr} {f : Bytes} (n : Nat) (h : Latched i s) (hl : s.pos.line ≠ .entry)
    (hw : lineInstr i s = some w) (hf : encodeFrame w = some f) (ha : s.answers = []) :
    Host.Core.run Sys2Proof.core (n + 1) s = .next s.assertCs := by
  induction n generalizing s with
  | zero => rw [run_succ 0 (step_unanswered h hl hw hf ha)]; rfl
  | succ n ih =>
    rw [run_succ (n + 1) (step_unanswered h hl hw hf ha)]
    exact ih h.assertCs hl hw ha

/-- Settles O16: one step asserts CS, and every further one finds the same place with the same frame and leaves it there. -/
theorem unansweredFrameWaits : Obligations.UnansweredFrameWaits := by
  intro s i w f n h hl hw hf ha
  exact ⟨exec_unanswered (lineInstr_isWire hw) hf ha, run_unanswered n h hl hw hf ha⟩

/-! ### Moves from outside (R6, R7, R159) -/

/-- The invariant asks nothing of the channels but that the requests the host holds fit. -/
theorem Inv.withChannels {s : State} (h : Inv s) {q : List Request} (hq : q.all Request.fits = true) (as : List Answer)
    (rs : List Response) : Inv { s with hostQ := q, answers := as, responses := rs } :=
  { h with held := hq }

/-- The state right after reset meets the invariant, under every well-formed configuration. -/
theorem inv_resetWith {c : Config} (hc : c.wf = true) : Inv (State.resetWith c) where
  config := hc
  deselected _ := rfl
  geometry h := Bool.noConfusion h
  unresolved _ := ⟨rfl, rfl⟩
  verified := by simp [verifyLegal, State.resetWith]
  latched := rfl
  held := rfl
  buffer := Nat.zero_le _
  position h := SeqState.noConfusion h
  idle h := WState.noConfusion h
  ordered := rfl
  frames := rfl

/-- An offered request joins the queue only when it fits (R79). -/
theorem offer_held {s : State} (h : s.hostQ.all Request.fits = true) (r : Request) :
    (s.offer r).hostQ.all Request.fits = true := by
  rw [State.offer_hostQ]
  split
  next hr => simpa [hr] using h
  next => exact h

theorem Inv.offer {s : State} (h : Inv s) (r : Request) : Inv (s.offer r) :=
  h.withChannels (offer_held h.held r) s.answers s.responses

theorem Inv.supply {s : State} (h : Inv s) (a : Answer) : Inv (s.supply a) :=
  h.withChannels h.held (s.answers ++ [a]) s.responses

/-- What an accepted reset event leaves: the reset state of the same configuration, with the channels as they stand (R159). -/
theorem resetEvent_next {s t : State} (h : s.resetEvent = .next t) :
    t = { State.resetWith s.cfg with hostQ := s.hostQ, answers := s.answers, responses := s.responses } := by
  unfold State.resetEvent at h
  split at h
  next => cases h
  next => injection h with h; exact h.symm

theorem Inv.resetEvent {s t : State} (h : Inv s) (hr : s.resetEvent = .next t) : Inv t := by
  rw [resetEvent_next hr]
  exact (inv_resetWith h.config).withChannels h.held s.answers s.responses

/-- Settles O45: the host and the transport change the channels only, and reset starts from a state that meets the invariant. -/
theorem outsideMovesKeepInvariant : Obligations.OutsideMovesKeepInvariant := by
  intro s h
  exact ⟨h.offer, h.supply, fun _ => h.resetEvent⟩

end Sys2Proof.Machine

/-! ## spec/10_state.md: what one step can be, and what it leaves unchanged -/

namespace Sys2Proof

/-! ### A frame decodes to the command it encodes (R73, R75, R78) -/

theorem addrOf_le24 {a : Nat} (h : a < addrLimit) :
    addrOf (BitVec.ofNat 8 a) (BitVec.ofNat 8 (a / 256)) (BitVec.ofNat 8 (a / 65536)) = a := by
  have h24 : a < 16777216 := h
  simp only [addrOf, BitVec.toNat_ofNat]
  omega

theorem decodeReadPhase_fill {least n : Nat} (op : Byte) (header : Nat) (k : Nat → Instr) (h : least ≤ n) :
    decodeReadPhase op header least (fill n) k = .ok (k n) := by
  simp [decodeReadPhase, Nat.not_lt.mpr h]

theorem decodeStatus_fill (op : Byte) (i : Instr) : decodeStatus op i (fill 1) = .ok i := by
  rw [decodeStatus, if_pos (fill_length 1), decodeReadPhase_fill op 1 _ le_rfl]

theorem decodeAddressed_le24 {a : Nat} (op : Byte) (p : Bytes) (k : Nat → Bytes → Except Reject Instr)
    (h : a < addrLimit) : decodeAddressed op (le24 a ++ p) k = k a p := by
  simp only [le24, decodeAddressed, List.cons_append, List.nil_append, addrOf_le24 h]

theorem decodeFrame_pp (rest : Bytes) : decodeFrame (opPP :: rest) = decodeAddressed opPP rest decodePayload := rfl

theorem decodeFrame_se (rest : Bytes) :
    decodeFrame (opSE :: rest) = decodeAddressed opSE rest (fun a p => decodeNoPayload opSE (.se a) p) := rfl

theorem decodeFrame_sse (rest : Bytes) :
    decodeFrame (opSSE :: rest) = decodeAddressed opSSE rest (fun a p => decodeNoPayload opSSE (.sse a) p) := rfl

theorem decodeFrame_readData (rest : Bytes) :
    decodeFrame (opREAD :: rest) =
      decodeAddressed opREAD rest (fun a p => decodeReadPhase opREAD 4 1 p (.readData a)) := rfl

/-- The payload condition of PP, clause by clause (R94). -/
theorem ppOperandsOk_iff (a : Nat) (d : Bytes) :
    ppOperandsOk a d = true ↔
      a < addrLimit ∧ 1 ≤ d.length ∧ d.length ≤ pageLen ∧ a % pageLen + d.length ≤ pageLen := by
  simp [ppOperandsOk, and_assoc]

/-- The range condition of READ_DATA, clause by clause (R98). -/
theorem readOperandsOk_iff (c : Config) (a n : Nat) :
    readOperandsOk c a n = true ↔ 1 ≤ n ∧ n ≤ c.readChunk ∧ a + n ≤ addrLimit := by
  simp [readOperandsOk, and_assoc]

/-- Every well-formed wire command has a frame, and the frame decodes to it. -/
theorem decodeFrame_encodeFrame {c : Config} {w : Instr} (hw : w.isWire = true) (hf : w.wf c = true) :
    ∃ f, encodeFrame w = some f ∧ decodeFrame f = .ok w := by
  cases w with
  | rdid n =>
    have hn : 3 ≤ n := by simp only [Instr.wf, decide_eq_true_eq] at hf; omega
    exact ⟨_, rfl, decodeReadPhase_fill opRDID 1 _ hn⟩
  | rdsr => exact ⟨_, rfl, decodeStatus_fill opRDSR .rdsr⟩
  | rfsr => exact ⟨_, rfl, decodeStatus_fill opRFSR .rfsr⟩
  | wren => exact ⟨_, rfl, rfl⟩
  | be => exact ⟨_, rfl, rfl⟩
  | pp a d =>
    obtain ⟨ha, h1, h2, -⟩ := (ppOperandsOk_iff a d).mp hf
    refine ⟨_, codecEncode_some opPP d ha, ?_⟩
    rw [decodeFrame_pp, decodeAddressed_le24 opPP d _ ha, decodePayload, if_pos ⟨h1, h2⟩]
  | se a =>
    have ha : a < addrLimit := of_decide_eq_true hf
    refine ⟨_, codecEncode_some opSE [] ha, ?_⟩
    rw [decodeFrame_se, decodeAddressed_le24 opSE [] _ ha, decodeNoPayload]
  | sse a =>
    have ha : a < addrLimit := of_decide_eq_true hf
    refine ⟨_, codecEncode_some opSSE [] ha, ?_⟩
    rw [decodeFrame_sse, decodeAddressed_le24 opSSE [] _ ha, decodeNoPayload]
  | readData a n =>
    obtain ⟨h1, -, h3⟩ := (readOperandsOk_iff c a n).mp hf
    have ha : a < addrLimit := by omega
    refine ⟨_, codecEncode_some opREAD _ ha, ?_⟩
    rw [decodeFrame_readData, decodeAddressed_le24 opREAD _ _ ha, decodeReadPhase_fill opREAD 4 _ h1]
  | _ => exact Bool.noConfusion hw

/-- REQ decodes to host requests only (R79). -/
theorem decodeRequest_isWire {r : Request} {i : Instr} (h : decodeRequest r = .ok i) : i.isWire = false := by
  unfold decodeRequest at h
  split at h <;> cases h <;> rfl

end Sys2Proof

namespace Sys2Proof.Machine

/-! ### A frame at the position, and its answer -/

/-- The frame `f` of the wire command `w` stands at the position, in request `i` (R22). -/
structure AtFrame (i w : Instr) (f : Bytes) (s : State) : Prop where
  executing : s.seqState = .exec
  request : decodeRequest s.req = .ok i
  line : s.pos.line ≠ .entry
  instr : lineInstr i s = some w
  frame : encodeFrame w = some f

/-- The state in which the request's lines go on: the answer `r` to the frame `f` of `w` has come back (R13, R113). -/
def State.received (s : State) (w : Instr) (f r : Bytes) (rest : List Answer) : State :=
  { s with
    cs := false
    answers := rest
    trace := s.trace ++ [{ frame := f, answer := .bytes r }]
    work := { s.work with resp := r }
    wstate := if w.isDestructive then .unknown else s.wstate }

section Received
variable (s : State) (w : Instr) (f r : Bytes) (rest : List Answer)

@[simp] theorem State.received_cfg : (s.received w f r rest).cfg = s.cfg := rfl
@[simp] theorem State.received_seqState : (s.received w f r rest).seqState = s.seqState := rfl
@[simp] theorem State.received_req : (s.received w f r rest).req = s.req := rfl
@[simp] theorem State.received_pos : (s.received w f r rest).pos = s.pos := rfl
@[simp] theorem State.received_work : (s.received w f r rest).work = { s.work with resp := r } := rfl
@[simp] theorem State.received_ident : (s.received w f r rest).ident = s.ident := rfl
@[simp] theorem State.received_geom : (s.received w f r rest).geom = s.geom := rfl
@[simp] theorem State.received_warn : (s.received w f r rest).warn = s.warn := rfl
@[simp] theorem State.received_wstate :
    (s.received w f r rest).wstate = if w.isDestructive then .unknown else s.wstate := rfl
@[simp] theorem State.received_poll : (s.received w f r rest).poll = s.poll := rfl
@[simp] theorem State.received_lastStatus : (s.received w f r rest).lastStatus = s.lastStatus := rfl
@[simp] theorem State.received_verify : (s.received w f r rest).verify = s.verify := rfl
@[simp] theorem State.received_cs : (s.received w f r rest).cs = false := rfl
@[simp] theorem State.received_rbuf : (s.received w f r rest).rbuf = s.rbuf := rfl
@[simp] theorem State.received_trace :
    (s.received w f r rest).trace = s.trace ++ [{ frame := f, answer := .bytes r }] := rfl
@[simp] theorem State.received_hostQ : (s.received w f r rest).hostQ = s.hostQ := rfl
@[simp] theorem State.received_answers : (s.received w f r rest).answers = rest := rfl
@[simp] theorem State.received_responses : (s.received w f r rest).responses = s.responses := rfl

/-- It is what the Xfer, and WSTATE <- UNKNOWN after a destructive frame, leave. -/
theorem State.received_eq :
    (if w.isDestructive then fun t => State.setWState t .unknown else id)
      ((s.assertCs.endXfer f (.bytes r) rest).setResp r) = s.received w f r rest := by
  unfold State.received
  split <;> rfl

end Received

/-! ### What a request's first line can come to -/

/-- The address a chunked read begins at (R130, R132). -/
def readAddr : Instr → Nat
  | .read a _ => a.toNat
  | .rdid _ | .rdsr | .rfsr | .wren | .pp _ _ | .se _ | .sse _ | .be | .readData _ _ | .identify | .poll | .waitIdle
  | .eraseSector _ | .eraseSubsector _ | .eraseBulk | .pageProgram _ _ | .program _ | .verify _ => 0

/-- VERIFY writes VERIFY_VALID <- 0 before its checks, no other request does (R132). -/
def State.verifyCleared (s : State) (i : Instr) : State :=
  if i.clearsVerify then s.setVerify { s.verify with valid := false } else s

@[simp] theorem State.verifyCleared_geom (s : State) (i : Instr) : (s.verifyCleared i).geom = s.geom := by
  unfold State.verifyCleared
  split <;> rfl

@[simp] theorem State.verifyCleared_pos (s : State) (i : Instr) : (s.verifyCleared i).pos = s.pos := by
  unfold State.verifyCleared
  split <;> rfl

/-- The ways a request's first line can end (R105, R111, R112, R117 to R125, R130, R132): an error, the line of its first frame,
or, where it sends none, its response. -/
inductive EntryRun (s : State) : Instr → State → Prop where
  | rejected {i : Instr} (e : ErrKind) (he : e ≠ .transportFailure) : EntryRun s i (errorEntry e (s.verifyCleared i))
  | identify (hg : s.geom.valid = false) : EntryRun s .identify (s.goto .sendRdid .single)
  | poll (hg : s.geom.valid = true) : EntryRun s .poll (s.goto .pollOnce .single)
  | waitIdle (hg : s.geom.valid = true) : EntryRun s .waitIdle (s.goto .waitIdle .single)
  | write {i : Instr} {a : Nat} (hg : s.geom.valid = true) (hr : waitRole i = some .write)
      (hl : loopOk i (startWriteStep .single 0 1 a s) = true) : EntryRun s i (startWriteStep .single 0 1 a s)
  | program {d : Bytes} (hg : s.geom.valid = true) (hd : imageOk d = true) :
      EntryRun s (.program d) (startErasePhase d.length s)
  | readNone {i : Instr} (hg : s.geom.valid = true) (hr : waitRole i = some .read) (hl : readLen i = 0) :
      EntryRun s i (finishRead i ((s.verifyCleared i).setRbuf []))
  | read {i : Instr} (hg : s.geom.valid = true) (hr : waitRole i = some .read) (hl : readLen i ≠ 0)
      (ha : readAddr i + readLen i ≤ addrLimit) :
      EntryRun s i (startRead (readAddr i) (readLen i) (s.verifyCleared i))

/-- A check that fails raises its error; a request whose checks pass goes on. -/
theorem checked_next {s t : State} {g ok : Bool} {o : Host.Outcome State Fault Refusal}
    (h : (if g = false then raise .notResolved s else if ok then o else raise .invalidArgument s) = .next t) :
    (∃ e, e ≠ .transportFailure ∧ t = errorEntry e s) ∨ (g = true ∧ ok = true ∧ o = .next t) := by
  split at h
  · cases h; exact .inl ⟨.notResolved, by decide, rfl⟩
  next hg =>
    split at h
    next ho => exact .inr ⟨by simpa using hg, ho, h⟩
    next => cases h; exact .inl ⟨.invalidArgument, by decide, rfl⟩

/-- The inversion of a host request's meaning. -/
theorem exec_run {s t : State} {i : Instr} (hi : i.isWire = false) (h : exec i s = .next t) : EntryRun s i t := by
  cases i with
  | identify =>
    simp only [exec, execIdentify] at h
    split at h <;> cases h
    next => exact .rejected .invalidState (by decide)
    next hg => exact .identify (by simpa using hg)
  | poll =>
    simp only [exec, execPoll] at h
    split at h <;> cases h
    next hg => exact .poll hg
    next => exact .rejected .notResolved (by decide)
  | waitIdle =>
    simp only [exec, execWaitIdle] at h
    split at h <;> cases h
    next hg => exact .waitIdle hg
    next => exact .rejected .notResolved (by decide)
  | eraseBulk =>
    simp only [exec, execEraseBulk] at h
    split at h <;> cases h
    next => exact .rejected .notResolved (by decide)
    next hg => exact .write (by simpa using hg) rfl rfl
  | eraseSector a =>
    obtain ⟨e, he, rfl⟩ | ⟨hg, ho, h⟩ := checked_next h
    · exact .rejected e he
    · cases h; exact .write hg rfl (by simpa [loopOk] using ho)
  | eraseSubsector a =>
    obtain ⟨e, he, rfl⟩ | ⟨hg, ho, h⟩ := checked_next h
    · exact .rejected e he
    · cases h; exact .write hg rfl (by simpa [loopOk] using ho)
  | pageProgram a d =>
    obtain ⟨e, he, rfl⟩ | ⟨hg, ho, h⟩ := checked_next h
    · exact .rejected e he
    · cases h; exact .write hg rfl (by simpa [loopOk] using ho)
  | program d =>
    obtain ⟨e, he, rfl⟩ | ⟨hg, ho, h⟩ := checked_next h
    · exact .rejected e he
    · cases h; exact .program hg ho
  | read a l =>
    obtain ⟨e, he, rfl⟩ | ⟨hg, ho, h⟩ := checked_next h
    · exact .rejected e he
    · simp only [readOk, Bool.and_eq_true, decide_eq_true_eq] at ho
      split at h <;> cases h
      next hl => exact .readNone (i := .read a l) hg rfl hl
      next hl => exact .read (i := .read a l) hg rfl hl ho.2
  | verify d =>
    obtain ⟨e, he, rfl⟩ | ⟨hg, ho, h⟩ := checked_next (s := s.verifyCleared (.verify d)) h
    · exact .rejected e he
    · have hd : 0 + d.length ≤ addrLimit := by simpa [imageOk] using ho
      split at h <;> cases h
      next hl => exact .readNone (i := .verify d) hg rfl hl
      next hl => exact .read (i := .verify d) hg rfl hl hd
  | _ => exact Bool.noConfusion hi

/-! ### Which wire command stands at which line -/

/-- The inversion of lineInstr, line by line. -/
theorem lineInstr_cases {i w : Instr} {s : State} (h : lineInstr i s = some w) :
    (s.pos.line = .sendRdid ∧ i = .identify ∧ w = .rdid (3 + s.cfg.uidLen)) ∨
    (s.pos.line = .pollOnce ∧ i = .poll ∧ w = pollInstr s.geom) ∨
    (s.pos.line = .waitIdle ∧ (waitRole i).isSome = true ∧ w = pollInstr s.geom) ∨
    (s.pos.line = .sendWren ∧ waitRole i = some .write ∧ w = .wren) ∨
    (s.pos.line = .destructive ∧ destructiveInstr i s = some w) ∨
    (s.pos.line = .sendRead ∧ waitRole i = some .read ∧ w = chunkInstr s.cfg s.work.a (readLen i) s.work.i) := by
  cases hl : s.pos.line <;> simp_all [lineInstr]

/-- A status frame is not destructive. -/
theorem pollInstr_isDestructive (g : GeomRegs) : (pollInstr g).isDestructive = false := by
  unfold pollInstr
  split <;> rfl

/-- A destructive frame stands at the line of the destructive frame only (R117). -/
theorem line_of_isDestructive {i w : Instr} {s : State} (h : lineInstr i s = some w) (hd : w.isDestructive = true) :
    s.pos.line = .destructive := by
  obtain ⟨-, -, rfl⟩ | ⟨-, -, rfl⟩ | ⟨-, -, rfl⟩ | ⟨-, -, rfl⟩ | ⟨hl, -⟩ | ⟨-, -, rfl⟩ := lineInstr_cases h
  · exact Bool.noConfusion hd
  · rw [pollInstr_isDestructive] at hd; exact Bool.noConfusion hd
  · rw [pollInstr_isDestructive] at hd; exact Bool.noConfusion hd
  · exact Bool.noConfusion hd
  · exact hl
  · exact Bool.noConfusion hd

/-- READ and VERIFY are the requests that read. -/
theorem waitRole_read {i : Instr} (h : waitRole i = some .read) : (∃ a l, i = .read a l) ∨ ∃ d, i = .verify d := by
  cases i <;> simp_all [waitRole]

theorem clearsVerify_iff (i : Instr) : i.clearsVerify = true ↔ ∃ d, i = .verify d := by
  cases i <;> simp [Instr.clearsVerify]

/-! ### What the lines after an answered frame can come to -/

/-- The ways the lines of request `i` after a frame can end (R105, R109 to R112, R117 to R125, R129 to R132): at the next frame, or
with the response. -/
inductive AdvanceRun (i : Instr) (s : State) : State → Prop where
  | identified (hl : s.pos.line = .sendRdid) : AdvanceRun i s (finishIdentify s)
  | polled (hl : s.pos.line = .pollOnce) : AdvanceRun i s (finishPoll s)
  | pollsAgain (hl : s.pos.line = .waitIdle) (hw : (afterPoll s).wstate ≠ .idle) : AdvanceRun i s (afterPoll s)
  | idleResponds (hl : s.pos.line = .waitIdle) (hw : (afterPoll s).wstate = .idle) :
      AdvanceRun i s (respond (.waitIdle (afterPoll s).poll.value) (afterPoll s))
  | idleWrites (hl : s.pos.line = .waitIdle) (hw : (afterPoll s).wstate = .idle) (hr : waitRole i = some .write) :
      AdvanceRun i s ((afterPoll s).goto .sendWren s.pos.phase)
  | idleReads (hl : s.pos.line = .waitIdle) (hw : (afterPoll s).wstate = .idle) (hr : waitRole i = some .read) :
      AdvanceRun i s (beginChunks (afterPoll s))
  | writeEnabled (hl : s.pos.line = .sendWren) (hr : waitRole i = some .write) :
      AdvanceRun i s (s.goto .destructive s.pos.phase)
  | written (hl : s.pos.line = .destructive) : AdvanceRun i s (respond .none s)
  | nextErase (hl : s.pos.line = .destructive) (hp : s.pos.phase = .erase) (hn : s.work.i + 1 < s.work.n) :
      AdvanceRun i s (startWriteStep .erase (s.work.i + 1) s.work.n (eraseAddr s.geom (s.work.i + 1)) s)
  | erased (hl : s.pos.line = .destructive) (hp : s.pos.phase = .erase) :
      AdvanceRun i s (startProgramPhase (imageLen i) s)
  | nextPage (hl : s.pos.line = .destructive) (hp : s.pos.phase = .program) (hn : s.work.i + 1 < s.work.n) :
      AdvanceRun i s (startWriteStep .program (s.work.i + 1) s.work.n (pageAddr (s.work.i + 1)) s)
  | nextChunk (hl : s.pos.line = .sendRead) (hr : waitRole i = some .read) (hn : s.work.i + 1 < s.work.n) :
      AdvanceRun i s
        ((s.setRbuf (s.rbuf ++ codecDecode s.work.resp 4)).setLoop (s.work.i + 1) s.work.n s.work.a)
  | lastChunk (hl : s.pos.line = .sendRead) (hr : waitRole i = some .read) (hn : ¬ s.work.i + 1 < s.work.n) :
      AdvanceRun i s (finishRead i (s.setRbuf (s.rbuf ++ codecDecode s.work.resp 4)))

theorem afterWaitPoll_run {i : Instr} {s : State} (hl : s.pos.line = .waitIdle) (hr : (waitRole i).isSome = true) :
    AdvanceRun i s (afterWaitPoll i s) := by
  by_cases hw : (afterPoll s).wstate = .idle
  · rw [show afterWaitPoll i s = afterIdle i (afterPoll s) from if_pos hw]
    unfold afterIdle
    split
    next => exact .idleResponds hl hw
    next hi => exact .idleWrites hl hw hi
    next hi => exact .idleReads hl hw hi
    next hi => simp [hi] at hr
  · rw [show afterWaitPoll i s = afterPoll s from if_neg hw]
    exact .pollsAgain hl hw

theorem afterDestructive_run {i : Instr} {s : State} (hl : s.pos.line = .destructive) :
    AdvanceRun i s (afterDestructive i s) := by
  unfold afterDestructive
  split
  next => exact .written hl
  next hp =>
    split
    next hn => exact .nextErase hl hp hn
    next => exact .erased hl hp
  next hp =>
    split
    next hn => exact .nextPage hl hp hn
    next => exact .written hl

theorem afterChunk_run {i : Instr} {s : State} (hl : s.pos.line = .sendRead) (hr : waitRole i = some .read) :
    AdvanceRun i s (afterChunk i s) := by
  by_cases hn : s.work.i + 1 < s.work.n
  · rw [show afterChunk i s = _ from if_pos hn]
    exact .nextChunk hl hr hn
  · rw [show afterChunk i s = _ from if_neg hn]
    exact .lastChunk hl hr hn

/-- The inversion of advance at a line where a frame of the request stands. -/
theorem advance_run {i w : Instr} {s : State} (h : lineInstr i s = some w) : AdvanceRun i s (advance i s) := by
  unfold advance
  obtain ⟨hl, -⟩ | ⟨hl, -⟩ | ⟨hl, hr, -⟩ | ⟨hl, hr, -⟩ | ⟨hl, -⟩ | ⟨hl, hr, -⟩ := lineInstr_cases h <;>
    simp only [hl]
  · exact .identified hl
  · exact .polled hl
  · exact afterWaitPoll_run hl hr
  · exact .writeEnabled hl hr
  · exact afterDestructive_run hl
  · exact afterChunk_run hl hr

/-! ### What one step can be -/

/-- The same frame stands at the position once its answer is in. -/
theorem AtFrame.lineInstr_received {i w : Instr} {f : Bytes} {s : State} (h : AtFrame i w f s) (r : Bytes)
    (rest : List Answer) : lineInstr i (s.received w f r rest) = some w := h.instr

/-- What one step can be: the block waits, accepts a request, ends a reserved one, runs a request's first lines, or comes to
a frame, which is not answered, fails, or is answered and lets the request's lines go on. -/
inductive StepRun (s : State) : State → Prop where
  | waits (hr : s.seqState = .ready) (hq : s.hostQ = []) : StepRun s s
  | accepts {r : Request} {rest : List Request} (hr : s.seqState = .ready) (hq : s.hostQ = r :: rest) :
      StepRun s (s.accept r rest)
  | reserved {e : Reject} (hx : s.seqState = .exec) (hd : decodeRequest s.req = .error e) :
      StepRun s (errorEntry .invalidRequest s)
  | entry {i : Instr} {t : State} (hx : s.seqState = .exec) (hd : decodeRequest s.req = .ok i)
      (hl : s.pos.line = .entry) (h : EntryRun s i t) : StepRun s t
  | unanswered {i w : Instr} {f : Bytes} (hf : AtFrame i w f s) (ha : s.answers = []) : StepRun s s.assertCs
  | failed {i w : Instr} {f : Bytes} {a : Answer} {rest : List Answer} (hf : AtFrame i w f s)
      (ha : s.answers = a :: rest) (hn : ∀ r, a = .bytes r → r.length ≠ f.length) :
      StepRun s (errorEntry .transportFailure (s.assertCs.endXfer f a rest))
  | answered {i w : Instr} {f r : Bytes} {rest : List Answer} {t : State} (hf : AtFrame i w f s)
      (ha : s.answers = .bytes r :: rest) (hr : r.length = f.length) (h : AdvanceRun i (s.received w f r rest) t) :
      StepRun s t

/-- A wire command that goes on has a frame: an address encode refuses is a fault (R86). -/
theorem encodeFrame_of_exec {w : Instr} {s t : State} (hw : w.isWire = true) (h : exec w s = .next t) :
    ∃ f, encodeFrame w = some f := by
  rw [exec_wire hw] at h
  cases hf : encodeFrame w with
  | none => simp [hf, sendFrame] at h
  | some f => exact ⟨f, rfl⟩

/-- The inversion of step, frame by frame. -/
theorem step_run {s t : State} (h : step s = .next t) : StepRun s t := by
  obtain ⟨-, ⟨hr, rfl⟩ | ⟨hx, e, hd, rfl⟩ | ⟨hx, i, hd, hl, he⟩ | ⟨hx, i, w, u, hd, hl, hw, he, rfl⟩⟩ := step_cases h
  · cases hq : s.hostQ with
    | nil => simpa [acceptStep, hq] using StepRun.waits hr hq
    | cons r rest => simpa [acceptStep, hq] using StepRun.accepts hr hq
  · exact .reserved hx hd
  · exact .entry hx hd hl (exec_run (decodeRequest_isWire hd) he)
  · have hwire : w.isWire = true := lineInstr_isWire hw
    obtain ⟨f, hf⟩ := encodeFrame_of_exec hwire he
    have hat : AtFrame i w f s := ⟨hx, hd, hl, hw, hf⟩
    rw [exec_wire hwire, hf] at he
    obtain ⟨ha, rfl⟩ | ⟨r, rest, ha, hr, rfl⟩ | ⟨a, rest, ha, hn, rfl⟩ := sendFrame_cases he
    · rw [afterFrame_selected i s.assertCs_cs]
      exact .unanswered hat ha
    · rw [State.received_eq, afterFrame_answered i (s := s.received w f r rest) hx rfl]
      exact .answered hat ha hr (advance_run (hat.lineInstr_received r rest))
    · have hready : afterFrame i (errorEntry .transportFailure (s.assertCs.endXfer f a rest)) =
          errorEntry .transportFailure (s.assertCs.endXfer f a rest) := if_pos (.inl rfl)
      rw [hready]
      exact .failed hat ha hn

/-! ### What a request's lines leave unchanged -/

/-- Between `s` and `t` lines of request `i` have run: no bus activity; the identification and geometry registers and the warning
differ only if `idents` holds, WSTATE and LAST_POLL only if `polls` holds, the verify registers only in VERIFY, and RBUF only in
a request that reads (R41's writers). -/
structure LinesFrame (idents polls : Prop) (i : Instr) (s t : State) : Prop where
  cfg : t.cfg = s.cfg
  req : t.req = s.req
  cs : t.cs = s.cs
  trace : t.trace = s.trace
  hostQ : t.hostQ = s.hostQ
  answers : t.answers = s.answers
  resp : t.work.resp = s.work.resp
  ident : t.ident ≠ s.ident ∨ t.geom ≠ s.geom ∨ t.warn ≠ s.warn → idents
  wstate : t.wstate ≠ s.wstate → polls
  poll : t.poll ≠ s.poll → polls
  byte : t.work.b ≠ s.work.b → polls
  verify : t.verify ≠ s.verify → i.clearsVerify = true
  rbuf : t.rbuf ≠ s.rbuf → waitRole i = some .read

namespace LinesFrame
variable {P Q : Prop} {i : Instr} {s t : State}

theorem refl (P Q : Prop) (i : Instr) (s : State) : LinesFrame P Q i s s := by
  constructor <;> simp

theorem goto (h : LinesFrame P Q i s t) (l : Line) (p : Phase) : LinesFrame P Q i s (t.goto l p) := { h with }

theorem setLoop (h : LinesFrame P Q i s t) (k n a : Nat) : LinesFrame P Q i s (t.setLoop k n a) := { h with }

theorem finish (h : LinesFrame P Q i s t) (st : Status) (f : Fields) : LinesFrame P Q i s (t.finish st f) := { h with }

theorem setIdent (h : LinesFrame P Q i s t) (hP : P) (r : IdRegs) (g : GeomRegs) (w : Bool) :
    LinesFrame P Q i s (t.setIdent r g w) := { h with ident := fun _ => hP }

theorem setPoll (h : LinesFrame P Q i s t) (hQ : Q) (b : Byte) (w : WState) : LinesFrame P Q i s (t.setPoll b w) :=
  { h with wstate := fun _ => hQ, poll := fun _ => hQ, byte := fun _ => hQ }

theorem setVerify (h : LinesFrame P Q i s t) (hv : i.clearsVerify = true) (v : VerifyRegs) :
    LinesFrame P Q i s (t.setVerify v) := { h with verify := fun _ => hv }

theorem setRbuf (h : LinesFrame P Q i s t) (hr : waitRole i = some .read) (d : Bytes) :
    LinesFrame P Q i s (t.setRbuf d) := { h with rbuf := fun _ => hr }

theorem afterPoll (h : LinesFrame P Q i s t) (hQ : Q) : LinesFrame P Q i s (afterPoll t) := h.setPoll hQ _ _

theorem verifyCleared (P Q : Prop) (i : Instr) (s : State) : LinesFrame P Q i s (s.verifyCleared i) := by
  unfold State.verifyCleared
  split
  next hv => exact (refl P Q i s).setVerify hv _
  next => exact refl P Q i s

theorem errorEntry (h : LinesFrame P Q i s t) {e : ErrKind} (he : e ≠ .transportFailure) :
    LinesFrame P Q i s (errorEntry e t) := by
  rw [Machine.errorEntry, if_neg he]
  exact h.finish e.status .none

theorem startWriteStep (h : LinesFrame P Q i s t) (p : Phase) (k n a : Nat) :
    LinesFrame P Q i s (startWriteStep p k n a t) := (h.setLoop k n a).goto .waitIdle p

theorem startProgramPhase (h : LinesFrame P Q i s t) (l : Nat) : LinesFrame P Q i s (startProgramPhase l t) := by
  unfold Machine.startProgramPhase
  split
  · exact h.finish .ok .none
  · exact h.startWriteStep ..

theorem startErasePhase (h : LinesFrame P Q i s t) (l : Nat) : LinesFrame P Q i s (startErasePhase l t) := by
  unfold Machine.startErasePhase
  split
  · exact h.startProgramPhase l
  · exact h.startWriteStep ..

theorem beginChunks (h : LinesFrame P Q i s t) (hr : waitRole i = some .read) : LinesFrame P Q i s (beginChunks t) :=
  (h.setRbuf hr []).goto .sendRead .single

theorem startRead (h : LinesFrame P Q i s t) (hr : waitRole i = some .read) (a l : Nat) :
    LinesFrame P Q i s (startRead a l t) := by
  unfold Machine.startRead
  split
  · exact (h.setLoop 0 _ a).beginChunks hr
  · exact (h.setLoop 0 _ a).goto .waitIdle .single

theorem finishRead (h : LinesFrame P Q i s t) : LinesFrame P Q i s (finishRead i t) := by
  cases i with
  | read => exact h.finish _ _
  | verify => exact (h.setVerify rfl _).finish _ _
  | _ => exact h

end LinesFrame

/-- The frame of a request's first line (R41). -/
theorem EntryRun.frame {i : Instr} {s t : State} (h : EntryRun s i t) : LinesFrame False False i s t := by
  have h0 := LinesFrame.refl False False i s
  have hc := LinesFrame.verifyCleared False False i s
  cases h with
  | rejected e he => exact hc.errorEntry he
  | identify => exact h0.goto ..
  | poll => exact h0.goto ..
  | waitIdle => exact h0.goto ..
  | write => exact h0.startWriteStep ..
  | program => exact h0.startErasePhase _
  | readNone _ hr => exact (hc.setRbuf hr []).finishRead
  | read _ hr => exact hc.startRead hr ..

/-- The frame of the lines between two frames (R41): IDENTIFY's write the identification, those after a poll WSTATE and LAST_POLL. -/
theorem AdvanceRun.frame {i : Instr} {s t : State} (h : AdvanceRun i s t) :
    LinesFrame (s.pos.line = .sendRdid) (s.pos.line ∈ [.pollOnce, .waitIdle]) i s t := by
  have h0 := LinesFrame.refl (s.pos.line = .sendRdid) (s.pos.line ∈ [.pollOnce, .waitIdle]) i s
  cases h with
  | identified hl => exact (h0.setIdent hl _ _ _).finish ..
  | polled hl => exact (h0.afterPoll (by simp [hl])).finish ..
  | pollsAgain hl => exact h0.afterPoll (by simp [hl])
  | idleResponds hl => exact (h0.afterPoll (by simp [hl])).finish ..
  | idleWrites hl => exact (h0.afterPoll (by simp [hl])).goto ..
  | idleReads hl _ hr => exact (h0.afterPoll (by simp [hl])).beginChunks hr
  | writeEnabled => exact h0.goto ..
  | written => exact h0.finish ..
  | nextErase => exact h0.startWriteStep ..
  | erased => exact h0.startProgramPhase _
  | nextPage => exact h0.startWriteStep ..
  | nextChunk _ hr => exact (h0.setRbuf hr _).setLoop ..
  | lastChunk _ hr => exact (h0.setRbuf hr _).finishRead

/-! ### What a request's lines do to SEQ_STATE, LAST_STATUS and the responses -/

/-- Between `s` and `t` the request has given no response, or one, with which it has ended (R14, R18, R82). -/
def EndsAtMostOnce (s t : State) : Prop :=
  (t.responses = s.responses ∧ t.lastStatus = s.lastStatus ∧ t.seqState = s.seqState) ∨
  ∃ r : Response, t.responses = s.responses ++ [r] ∧ t.lastStatus = r.status ∧ t.seqState = .ready ∧
    (r.status ≠ .ok → r.fields = .none)

theorem endsAtMostOnce_finish {s t : State} (hr : t.responses = s.responses) (f : Fields) :
    EndsAtMostOnce s (t.finish .ok f) :=
  .inr ⟨⟨.ok, f⟩, congrArg (· ++ _) hr, rfl, rfl, fun h => absurd rfl h⟩

theorem endsAtMostOnce_errorEntry {s t : State} (hr : t.responses = s.responses) (e : ErrKind) :
    EndsAtMostOnce s (errorEntry e t) := by
  rw [errorEntry_eq]
  exact .inr ⟨⟨e.status, .none⟩, congrArg (· ++ _) hr, rfl, rfl, fun _ => rfl⟩

theorem startProgramPhase_ends (l : Nat) (s : State) : EndsAtMostOnce s (startProgramPhase l s) := by
  unfold startProgramPhase
  split
  · exact endsAtMostOnce_finish rfl .none
  · exact .inl ⟨rfl, rfl, rfl⟩

theorem startErasePhase_ends (l : Nat) (s : State) : EndsAtMostOnce s (startErasePhase l s) := by
  unfold startErasePhase
  split
  · exact startProgramPhase_ends l s
  · exact .inl ⟨rfl, rfl, rfl⟩

theorem verifyCleared_silent (i : Instr) (s : State) : (s.verifyCleared i).responses = s.responses ∧
    (s.verifyCleared i).lastStatus = s.lastStatus ∧ (s.verifyCleared i).seqState = s.seqState := by
  unfold State.verifyCleared
  split <;> exact ⟨rfl, rfl, rfl⟩

theorem finishRead_ends {i : Instr} (hi : waitRole i = some .read) {s t : State} (hr : t.responses = s.responses) :
    EndsAtMostOnce s (finishRead i t) := by
  obtain ⟨a, l, rfl⟩ | ⟨d, rfl⟩ := waitRole_read hi
  · exact endsAtMostOnce_finish hr _
  · exact endsAtMostOnce_finish (t := t.setVerify _) hr _

theorem EntryRun.ends {i : Instr} {s t : State} (h : EntryRun s i t) : EndsAtMostOnce s t := by
  have hc := verifyCleared_silent i s
  cases h with
  | rejected e => exact endsAtMostOnce_errorEntry hc.1 e
  | identify | poll | waitIdle | write => exact .inl ⟨rfl, rfl, rfl⟩
  | program => exact startErasePhase_ends _ s
  | readNone _ hr => exact finishRead_ends hr (t := (s.verifyCleared i).setRbuf []) hc.1
  | read =>
    unfold startRead
    split <;> exact .inl hc

theorem AdvanceRun.ends {i : Instr} {s t : State} (h : AdvanceRun i s t) : EndsAtMostOnce s t := by
  cases h with
  | identified => exact endsAtMostOnce_finish (t := s.setIdent _ _ _) rfl _
  | polled => exact endsAtMostOnce_finish (t := afterPoll s) rfl _
  | idleResponds => exact endsAtMostOnce_finish (t := afterPoll s) rfl _
  | written => exact endsAtMostOnce_finish rfl _
  | erased => exact startProgramPhase_ends _ s
  | lastChunk _ hr => exact finishRead_ends hr rfl
  | pollsAgain | idleWrites | idleReads | writeEnabled | nextErase | nextPage | nextChunk => exact .inl ⟨rfl, rfl, rfl⟩

/-! ### The place in the pseudocode, line by line (R22) -/

section Position
variable {s : State} {i : Instr} (hd : decodeRequest s.req = .ok i)
include hd

theorem positionOk_entry (hl : s.pos.line = .entry) : positionOk s = true ↔ s.cs = false := by
  simp [positionOk, hd, hl]

theorem positionOk_sendRdid (hl : s.pos.line = .sendRdid) :
    positionOk s = true ↔ i = .identify ∧ s.geom.valid = false := by
  simp [positionOk, hd, hl]

theorem positionOk_pollOnce (hl : s.pos.line = .pollOnce) :
    positionOk s = true ↔ i = .poll ∧ s.geom.valid = true := by
  simp [positionOk, hd, hl]

theorem positionOk_waitIdle (hl : s.pos.line = .waitIdle) :
    positionOk s = true ↔ (waitRole i).isSome = true ∧ s.geom.valid = true ∧ loopOk i s = true := by
  simp [positionOk, hd, hl, and_assoc]

theorem positionOk_sendWren (hl : s.pos.line = .sendWren) :
    positionOk s = true ↔ waitRole i = some .write ∧ s.geom.valid = true ∧ loopOk i s = true ∧ s.wstate = .idle ∧
      s.trace.getLast?.any Event.reportsIdle = true := by
  simp [positionOk, hd, hl, and_assoc]

theorem positionOk_destructive (hl : s.pos.line = .destructive) :
    positionOk s = true ↔ waitRole i = some .write ∧ s.geom.valid = true ∧ loopOk i s = true ∧ s.wstate = .idle ∧
      s.trace.getLast?.any Event.enablesWrite = true := by
  simp [positionOk, hd, hl, and_assoc]

theorem positionOk_sendRead (hl : s.pos.line = .sendRead) :
    positionOk s = true ↔ waitRole i = some .read ∧ s.geom.valid = true ∧ loopOk i s = true ∧ s.wstate = .idle := by
  simp [positionOk, hd, hl, and_assoc]

end Position

/-- A reserved KIND stands at the first line, and sends nothing (R139). -/
theorem positionOk_reserved {s : State} {e : Reject} (hd : decodeRequest s.req = .error e) :
    positionOk s = true ↔ s.pos.line = .entry ∧ s.cs = false := by
  simp [positionOk, hd]

/-! ### One step as a whole -/

/-- A failed Xfer's event was not answered (R7, R143). -/
theorem answered_eq_false {f : Bytes} {a : Answer} (h : ∀ r, a = .bytes r → r.length ≠ f.length) :
    Event.answered ⟨f, a⟩ = false := by
  cases a with
  | fail => rfl
  | bytes r => exact decide_eq_false (h r rfl)

/-- Settles O10: the first line runs the meaning of the latched request. -/
theorem stepRunsLatchedRequest : Obligations.StepRunsLatchedRequest := by
  intro s i h hl
  exact step_entry h.config h.executing h.request hl

/-- A step at the line of a well-formed wire command: exec of it, then the request's lines unless it waits or has ended. -/
theorem step_atLine {s : State} {i w : Instr} (h : Latched i s) (hl : s.pos.line ≠ .entry) (hw : lineInstr i s = some w)
    (hwf : w.wf s.cfg = true) :
    ∃ t, exec w s = .next t ∧ step s = .next (if t.seqState = .ready ∨ t.cs = true then t else advance i t) := by
  have hwire : w.isWire = true := lineInstr_isWire hw
  obtain ⟨f, hf, -⟩ := decodeFrame_encodeFrame hwire hwf
  obtain ⟨t, ht⟩ := sendFrame_next f (if w.isDestructive then fun t => t.setWState .unknown else id) s
  have hx : exec w s = .next t := by rw [exec_wire hwire, hf, ht]
  exact ⟨t, hx, step_frame h.config h.executing h.request hl hw hx⟩

/-- Settles O11: a well-formed command's frame decodes to it, and the step is exec of it with the lines after the frame. -/
theorem stepRunsFrameAtPosition : Obligations.StepRunsFrameAtPosition := by
  intro s i w f h hl hw hf hwf
  obtain ⟨f', hf', hd⟩ := decodeFrame_encodeFrame (lineInstr_isWire hw) hwf
  obtain rfl : f = f' := Option.some.inj (hf.symm.trans hf')
  exact ⟨hd, step_atLine h hl hw hwf⟩

/-- Settles O9: acceptStep in READY; in EXEC every way a step can go leaves the queue and the latch. -/
theorem requestsAcceptedOneAtATime : Obligations.RequestsAcceptedOneAtATime := by
  intro s hc
  refine ⟨fun hr hq => ?_, fun r rest hr hq => ?_, fun t hx h => ?_⟩
  · simp [step, acceptStep, hc, hr, hq]
  · simp [step, acceptStep, hc, hr, hq, State.accept]
  · cases step_run h with
    | waits hr => exact SeqState.noConfusion (hx.symm.trans hr)
    | accepts hr => exact SeqState.noConfusion (hx.symm.trans hr)
    | reserved => simp [errorEntry_eq]
    | entry _ _ _ he => exact ⟨he.frame.hostQ, he.frame.req⟩
    | unanswered => exact ⟨rfl, rfl⟩
    | failed => simp [errorEntry_eq]
    | answered _ _ _ ha => exact ⟨ha.frame.hostQ, ha.frame.req⟩

/-- Settles O24: the frame of the lines before a request's first frame. -/
theorem requestEntryFrame : Obligations.RequestEntryFrame := by
  intro s t i hi h
  have hf := (exec_run hi h).frame
  refine ⟨hf.cfg, hf.req, ?_, ?_, ?_, not_not.mp hf.wstate, not_not.mp hf.poll, hf.cs, hf.trace, hf.hostQ, hf.answers,
    hf.resp, not_not.mp hf.byte, fun hr hv => ?_, fun hv => ?_⟩
  · exact not_not.mp fun hn => hf.ident (.inl hn)
  · exact not_not.mp fun hn => hf.ident (.inr (.inl hn))
  · exact not_not.mp fun hn => hf.ident (.inr (.inr hn))
  · by_contra hn
    obtain ⟨a, l, rfl⟩ | ⟨d, rfl⟩ := waitRole_read (hf.rbuf hn)
    · exact hr a l rfl
    · exact hv d rfl
  · by_contra hn
    obtain ⟨d, rfl⟩ := (clearsVerify_iff i).mp (hf.verify hn)
    exact hv d rfl

/-- Settles O42: CS is asserted by the frame that waits, and every other way a step can go leaves it deasserted. -/
theorem chipSelectOnlyInTransfer : Obligations.ChipSelectOnlyInTransfer := by
  intro s t hi h hcs
  cases step_run h with
  | waits hr => simp [hi.deselected hr] at hcs
  | accepts hr => simp [hi.deselected hr] at hcs
  | reserved hx hd =>
    obtain ⟨-, hoff⟩ := (positionOk_reserved hd).mp (hi.position hx)
    simp [errorEntry_eq, hoff] at hcs
  | entry hx hd hl he =>
    rw [he.frame.cs, (positionOk_entry hd hl).mp (hi.position hx)] at hcs
    exact Bool.noConfusion hcs
  | unanswered hf ha => exact ⟨hf.executing, ha, hf.line, rfl⟩
  | failed => simp [errorEntry_eq] at hcs
  | answered _ _ _ ha =>
    rw [ha.frame.cs] at hcs
    exact Bool.noConfusion hcs

/-! ### Placing an instruction (log entry 10) -/

/-- Placing puts the sequencer in EXEC and keeps the configuration and the transport's answers. -/
theorem placeInstr_frame (i : Instr) (s : State) :
    (placeInstr i s).seqState = .exec ∧ (placeInstr i s).cfg = s.cfg ∧ (placeInstr i s).answers = s.answers := by
  cases i <;> exact ⟨rfl, rfl, rfl⟩

/-- A placed request is latched, at its first line. -/
theorem placeInstr_request {i : Instr} (hi : i.isWire = false) (s : State) :
    decodeRequest (placeInstr i s).req = .ok i ∧ (placeInstr i s).pos.line = .entry := by
  cases i
  case identify | poll | waitIdle | eraseSector | eraseSubsector | eraseBulk | pageProgram | read | program | verify =>
    exact ⟨rfl, rfl⟩
  all_goals exact Bool.noConfusion hi

/-- The chunk that a placed READ_DATA stands for is the command itself: the request reads its range in one chunk (R98, R129). -/
theorem chunkInstr_single {c : Config} {a n : Nat} (h : readOperandsOk c a n = true) :
    chunkInstr c a (BitVec.ofNat 32 n).toNat 0 = .readData a n := by
  obtain ⟨-, hc, ha⟩ := (readOperandsOk_iff c a n).mp h
  have hn : (BitVec.ofNat 32 n).toNat = n :=
    (BitVec.toNat_ofNat ..).trans (Nat.mod_eq_of_lt (by have : a + n ≤ 16777216 := ha; omega))
  rw [hn]
  simp [chunkInstr, chunkOff, chunkLen, hc]

/-- A placed wire command stands at a frame line of a request that sends it. -/
theorem placeInstr_wire {i : Instr} {s : State} (hw : i.isWire = true) (hf : i.wf s.cfg = true) :
    ∃ j, decodeRequest (placeInstr i s).req = .ok j ∧ (placeInstr i s).pos.line ≠ .entry ∧
      lineInstr j (placeInstr i s) = some i := by
  cases i with
  | rdid n =>
    obtain rfl : n = 3 + s.cfg.uidLen := of_decide_eq_true hf
    exact ⟨.identify, rfl, Line.noConfusion, rfl⟩
  | rdsr => exact ⟨.poll, rfl, Line.noConfusion, rfl⟩
  | rfsr => exact ⟨.poll, rfl, Line.noConfusion, rfl⟩
  | wren => exact ⟨.eraseBulk, rfl, Line.noConfusion, rfl⟩
  | pp a d => exact ⟨.pageProgram (BitVec.ofNat 32 a) d, rfl, Line.noConfusion, rfl⟩
  | se a => exact ⟨.eraseSector (BitVec.ofNat 32 a), rfl, Line.noConfusion, rfl⟩
  | sse a => exact ⟨.eraseSubsector (BitVec.ofNat 32 a), rfl, Line.noConfusion, rfl⟩
  | be => exact ⟨.eraseBulk, rfl, Line.noConfusion, rfl⟩
  | readData a n =>
    exact ⟨.read (BitVec.ofNat 32 a) (BitVec.ofNat 32 n), rfl, Line.noConfusion, congrArg some (chunkInstr_single hf)⟩
  | _ => exact Bool.noConfusion hw

/-- Settles O12: a placed request stands at its first line, a placed wire command at a frame line that sends it. -/
theorem placedInstructionRuns : Obligations.PlacedInstructionRuns := by
  intro s i hc hwf
  obtain ⟨hx, hcfg, ha⟩ := placeInstr_frame i s
  have hc' : (placeInstr i s).cfg.wf = true := hcfg ▸ hc
  refine ⟨hx, hcfg, ha, fun hi => ?_, fun hw => ?_, fun nbits w hd => ?_⟩
  · obtain ⟨hd, hl⟩ := placeInstr_request hi s
    exact ⟨hd, step_entry hc' hx hd hl⟩
  · obtain ⟨j, hd, hl, hj⟩ := placeInstr_wire hw hwf
    obtain ⟨t, ht, hs⟩ := step_atLine ⟨hc', hx, hd⟩ hl hj (hcfg ▸ hwf)
    exact ⟨j, t, hd, hj, ht, hs⟩
  · simp only [State.withFetchWord, hd]

/-! ### The writers of each register (R41) -/

/-- What a frame's answer changes before the request's lines go on: WSTATE, and only after a destructive frame (R113). -/
theorem AtFrame.received_wstate {i w : Instr} {f : Bytes} {s : State} (h : AtFrame i w f s) (r : Bytes) (rest : List Answer)
    (hn : (s.received w f r rest).wstate ≠ s.wstate) : s.pos.line = .destructive := by
  refine line_of_isDestructive h.instr ?_
  by_contra hd
  simp [hd] at hn

/-- A response is what changes SEQ_STATE and LAST_STATUS in the lines of a request. -/
theorem EndsAtMostOnce.writers {s t : State} (h : EndsAtMostOnce s t) :
    (t.seqState ≠ s.seqState → ∃ r, t.responses = s.responses ++ [r]) ∧
    (t.lastStatus ≠ s.lastStatus → ∃ r, t.responses = s.responses ++ [r] ∧ t.lastStatus = r.status) := by
  obtain ⟨-, hl, hs⟩ | ⟨r, hr, hl, -, -⟩ := h
  · exact ⟨fun h => absurd hs h, fun h => absurd hl h⟩
  · exact ⟨fun _ => ⟨r, hr⟩, fun _ => ⟨r, hr, hl⟩⟩

theorem decodes_verify {q : Request} {i : Instr} (hd : decodeRequest q = .ok i) (h : i.clearsVerify = true) :
    ∃ d, decodeRequest q = .ok (.verify d) := by
  obtain ⟨d, rfl⟩ := (clearsVerify_iff i).mp h
  exact ⟨d, hd⟩

theorem decodes_reading {q : Request} {i : Instr} (hd : decodeRequest q = .ok i) (h : waitRole i = some .read) :
    (∃ a l, decodeRequest q = .ok (.read a l)) ∨ ∃ d, decodeRequest q = .ok (.verify d) := by
  obtain ⟨a, l, rfl⟩ | ⟨d, rfl⟩ := waitRole_read h
  · exact .inl ⟨a, l, hd⟩
  · exact .inr ⟨d, hd⟩

/-- After an answered frame WSTATE differs only at a poll or at a destructive frame (R108). -/
theorem AtFrame.wstate_writer {i w : Instr} {f r : Bytes} {rest : List Answer} {s t : State} (h : AtFrame i w f s)
    (ha : AdvanceRun i (s.received w f r rest) t) (hn : t.wstate ≠ s.wstate) :
    s.pos.line ∈ [.pollOnce, .waitIdle, .destructive] := by
  by_cases hu : t.wstate = (s.received w f r rest).wstate
  · simp [h.received_wstate r rest (hu ▸ hn)]
  · have hl : s.pos.line ∈ [.pollOnce, .waitIdle] := ha.frame.wstate hu
    exact List.mem_append_left [.destructive] hl

/-- Settles O40: register by register, over the ways a step can go. -/
theorem registersWrittenByTheirWriters : Obligations.RegistersWrittenByTheirWriters := by
  intro s t h
  cases step_run h with
  | waits => simp
  | accepts hr hq => simp [hr, hq]
  | reserved hx => simp [errorEntry_eq, hx]
  | unanswered hf => simp [hf.executing, hf.line, hf.request]
  | failed hf _ hn => simp [errorEntry_eq, hf.executing, hf.line, hf.request, answered_eq_false hn]
  | entry hx hd _ he =>
    have hf := he.frame
    obtain ⟨hseq, hst⟩ := he.ends.writers
    exact ⟨hf.cfg, .inl hf.trace, fun hn => .inr ⟨hx, hseq hn⟩, fun hn => absurd hf.req hn, fun hn => (hf.ident hn).elim,
      fun hn => (hf.wstate hn).elim, fun hn => (hf.poll hn).elim, hst, fun hn => ⟨hx, decodes_verify hd (hf.verify hn)⟩,
      fun hn => absurd hf.cs hn, fun hn => ⟨hx, decodes_reading hd (hf.rbuf hn)⟩, fun _ => hx⟩
  | answered hat _ _ ha =>
    have hx := hat.executing
    have hd := hat.request
    have hf := ha.frame
    obtain ⟨hseq, hst⟩ := ha.ends.writers
    exact ⟨hf.cfg, .inr ⟨_, hf.trace⟩, fun hn => .inr ⟨hx, hseq hn⟩, fun hn => absurd hf.req hn,
      fun hn => ⟨hx, hf.ident hn⟩, fun hn => ⟨hx, _, hf.trace, .inl (hat.wstate_writer ha hn)⟩,
      fun hn => ⟨hx, hf.poll hn⟩, hst, fun hn => ⟨hx, decodes_verify hd (hf.verify hn)⟩,
      fun _ => ⟨hx, hat.line, _, hd⟩, fun hn => ⟨hx, decodes_reading hd (hf.rbuf hn)⟩, fun _ => hx⟩

/-! ### Reset -/

/-- Settles O44: the reset state meets the invariant, and the default configuration is well-formed. -/
theorem resetMeetsInvariant : Obligations.ResetMeetsInvariant :=
  ⟨fun _ => inv_resetWith, inv_resetWith (by decide)⟩

/-! ### The status view (R41, R44) -/

/-- In READY a register that has a value gives it. -/
theorem statusView_ok {s : State} {r : ViewReg} {v : ViewValue} (n : Nat) (hs : s.seqState = .ready)
    (h : regValue s r = some v) : statusView n r s = .ok v := by
  simp only [statusView, hs, h]

/-- In READY a register that has no value faults (U8). -/
theorem statusView_noValue {s : State} {r : ViewReg} (n : Nat) (hs : s.seqState = .ready)
    (h : regValue s r = none) : statusView n r s = .error (.noValue r) := by
  simp only [statusView, hs, h]

@[simp] theorem given_true (v : ViewValue) : given true v = some v := rfl

@[simp] theorem given_false (v : ViewValue) : given false v = none := rfl

/-- A one-bit register reads as 0 or 1. -/
theorem num_toNat (b : Bool) : ViewValue.num b.toNat = .num (if b = true then 1 else 0) := by
  cases b <;> rfl

/-- The encodings of R32. -/
theorem wstate_code {w : WState} {k : Nat} (h : (w, k) ∈ [(WState.unknown, 0), (.busy, 1), (.idle, 2)]) :
    w.code.toNat = k := by
  cases w <;> simp_all [WState.code]

/-- The encodings of R138. -/
theorem status_code {c : Status} {k : Nat}
    (h : (c, k) ∈ [(Status.ok, 0), (.invalidArgument, 1), (.transportFailure, 2), (.notResolved, 3), (.invalidState, 4),
      (.invalidRequest, 5)]) : c.code.toNat = k := by
  cases c <;> simp_all [Status.code]

/-- The encodings of R25. -/
theorem family_code {f : Family} {k : Nat}
    (h : (f, k) ∈ [(Family.familyA, 0), (.familyB, 1), (.familyC, 2), (.unknown, 3)]) : f.code.toNat = k := by
  cases f <;> simp_all [Family.code]

/-- The encodings of R29. -/
theorem busyMethod_code {m : BusyMethod} {k : Nat} (h : (m, k) ∈ [(BusyMethod.status, 0), (.flag, 1)]) :
    m.code.toNat = k := by
  cases m <;> simp_all [BusyMethod.code]

/-- The registers that have no value until GEOM_VALID (R44). -/
theorem regValue_unresolved {s : State} (hg : s.geom.valid = false) {r : ViewReg}
    (hr : r ∈ [ViewReg.idMfr, .idType, .idCap, .idUid, .geomFamily, .geomSectorLen, .geomSubsectorValid,
      .geomSubsectorLen, .geomBusyMethod]) : regValue s r = none := by
  cases r <;> simp_all [regValue]

/-- The registers that have no value until VERIFY_VALID (R35, R36). -/
theorem regValue_unverified {s : State} (hv : s.verify.valid = false) {r : ViewReg}
    (hr : r ∈ [ViewReg.verifyMatched, .verifyOffsetValid, .verifyOffset, .verifyWinRead, .verifyWinRef]) :
    regValue s r = none := by
  cases r <;> simp_all [regValue]

/-- Under the invariant a valid result has no offset after a match (R35). -/
theorem Inv.offsetValid_of_matched {s : State} (h : Inv s) (hv : s.verify.valid = true) (hm : s.verify.matched = true) :
    s.verify.offsetValid = false := by
  have hl := h.verified
  simp only [verifyLegal, hv, hm, Bool.not_true, Bool.false_or, Bool.and_eq_true, decide_eq_true_eq] at hl
  exact hl.1.1

/-- Settles O51: each register's gate is the one regValue gives it, each code the one of its encoding. -/
theorem statusViewGivesOrFaults : Obligations.StatusViewGivesOrFaults := by
  intro s n hs
  have ok {r v} (h : regValue s r = some v) : statusView n r s = .ok v := statusView_ok n hs h
  have fault {r} (h : regValue s r = none) : statusView n r s = .error (.noValue r) := statusView_noValue n hs h
  refine ⟨ok ?_, ok rfl, ok ?_, ok ?_, ok ?_, ok ?_, fun w k hk hw => ok ?_, fun c k hk hc => ok ?_, fun hg => ?_,
    fun r hr hg => fault (regValue_unresolved hg hr), fun hp => ok ?_, fun hp => fault ?_, fun hv => ?_,
    fun r hr hv => fault (regValue_unverified hv hr)⟩
  · simp [regValue, hs, SeqState.code]
  · rw [regValue, num_toNat]
  · rw [regValue, num_toNat]
  · rw [regValue, num_toNat]
  · rw [regValue, num_toNat]
  · rw [regValue, hw, wstate_code hk]
  · rw [regValue, hc, status_code hk]
  · refine ⟨ok ?_, ok ?_, ok ?_, ok ?_, fun f k hk hf => ok ?_, ok ?_, ok ?_, fun hb => ok ?_, fun hb => fault ?_,
      fun m k hk hm => ok ?_⟩
    · simp [regValue, hg]
    · simp [regValue, hg]
    · simp [regValue, hg]
    · simp [regValue, hg]
    · rw [regValue, hg, hf, family_code hk, given_true]
    · simp [regValue, hg]
    · rw [regValue, hg, num_toNat, given_true]
    · simp [regValue, hg, hb]
    · simp [regValue, hb]
    · rw [regValue, hg, hm, busyMethod_code hk, given_true]
  · simp [regValue, hp]
  · simp [regValue, hp]
  · refine ⟨ok ?_, ok ?_, fun ho => ok ?_, fun ho => fault ?_, fun hm => ⟨ok ?_, ok ?_⟩,
      fun hm => ⟨fault ?_, fault ?_, fun hi => fault ?_⟩⟩
    · rw [regValue, hv, num_toNat, given_true]
    · rw [regValue, hv, num_toNat, given_true]
    · simp [regValue, hv, ho]
    · simp [regValue, ho]
    · simp [regValue, hv, hm]
    · simp [regValue, hv, hm]
    · simp [regValue, hm]
    · simp [regValue, hm]
    · simp [regValue, hi.offsetValid_of_matched hv hm]

/-- In EXEC the view gives the free value (U7). -/
theorem statusView_exec {s : State} (n : Nat) (r : ViewReg) (hs : s.seqState = .exec) :
    statusView n r s = .ok (freeView s.cfg n r) := by
  simp only [statusView, hs]

/-- The free value of a numeric register keeps to its width. -/
theorem freeView_num (c : Config) (n : Nat) {r : ViewReg} {w : Nat}
    (h : (r, w) ∈ [(ViewReg.seqState, 1), (.idMfr, 8), (.idType, 8), (.idCap, 8), (.geomValid, 1), (.geomFamily, 2),
      (.pageLen, 9), (.geomSectorLen, 32), (.geomSubsectorValid, 1), (.geomSubsectorLen, 32), (.geomBusyMethod, 1),
      (.warnUnknownChip, 1), (.wstate, 2), (.lastPoll, 8), (.lastStatus, 3), (.verifyValid, 1), (.verifyMatched, 1),
      (.verifyOffsetValid, 1), (.verifyOffset, 32), (.cs, 1)]) :
    freeView c n r = .num (Config.freeViewNum n r % 2 ^ w) := by
  cases r <;> simp_all [freeView, viewWidth]

/-- Settles O52: the free value is cut to the register's kind and width. -/
theorem statusViewInExecStaysInWidth : Obligations.StatusViewInExecStaysInWidth := by
  intro s n hs
  refine ⟨fun r w hr => ⟨Config.freeViewNum n r % 2 ^ w, ?_, Nat.mod_lt _ (Nat.two_pow_pos w)⟩,
    ⟨_, statusView_exec n _ hs, by simp⟩, fun r hr => ?_⟩
  · rw [statusView_exec n r hs, freeView_num s.cfg n hr]
  · have hm : Config.freeViewNum n r % (s.cfg.verifyWindow + 1) ≤ s.cfg.verifyWindow :=
      Nat.le_of_lt_succ (Nat.mod_lt _ (Nat.succ_pos _))
    simp only [List.mem_cons, List.not_mem_nil, or_false] at hr
    obtain rfl | rfl := hr <;> exact ⟨_, statusView_exec n _ hs, by simpa using hm⟩

/-! ### The derived capacity and DUMP (R30, R84, R104) -/

/-- Settles O54: the capacity is a function of the code, and DUMP's length fits LEN. -/
theorem capacityAndDump : Obligations.CapacityAndDump := by
  intro s
  refine ⟨fun hg => ?_, fun hg => ?_⟩
  · refine ⟨by simp [State.capacityBits, hg, capBits], by simp [State.capacityBytes, hg, capBytes],
      BitVec.ofNat 32 (min (2 ^ s.ident.cap.toNat) addrLimit), by simp [State.dump, State.capacityBytes, hg, capBytes], ?_⟩
    have hl : min (2 ^ s.ident.cap.toNat) addrLimit < 2 ^ 32 := lt_of_le_of_lt (min_le_right _ _) (by decide)
    exact (BitVec.toNat_ofNat ..).trans (Nat.mod_eq_of_lt hl)
  · simp [State.capacityBits, State.capacityBytes, State.dump, hg]

end Sys2Proof.Machine

/-! ## spec/10_state.md: every step keeps the invariant -/

namespace Sys2Proof.Machine

/-! ### Loop bounds (R122 to R126, R129, R131) -/

theorem mul_lt_of_lt_ceilDiv {l b k : Nat} (hb : 0 < b) (h : k < ceilDiv l b) : k * b < l := by
  have hk : (k + 1) * b ≤ l + b - 1 := (Nat.le_div_iff_mul_le hb).mp h
  rw [Nat.succ_mul] at hk
  omega

theorem ceilDiv_pos {l b : Nat} (hb : 0 < b) (hl : 0 < l) : 0 < ceilDiv l b :=
  (Nat.le_div_iff_mul_le hb).mpr (by omega)

@[simp] theorem slice_length (d : Bytes) (i j : Nat) : (slice d i j).length = min j d.length - i := by
  simp [slice]

/-- Chunk k of a read of `l` bytes holds a byte at least and ends inside the range (R131). -/
theorem chunk_inside {c : Config} {l k : Nat} (hc : 1 ≤ c.readChunk) (hk : k < chunkCount c l) :
    1 ≤ chunkLen c l k ∧ chunkLen c l k ≤ c.readChunk ∧ chunkOff c k + chunkLen c l k ≤ l := by
  have hoff : chunkOff c k < l := mul_lt_of_lt_ceilDiv hc hk
  unfold chunkLen
  omega

/-- Every chunk but the last is READ_CHUNK bytes long, so that the next one follows it (R129). -/
theorem chunkOff_succ {c : Config} {l k : Nat} (hc : 1 ≤ c.readChunk) (hk : k + 1 < chunkCount c l) :
    chunkOff c k + chunkLen c l k = chunkOff c (k + 1) := by
  have hoff : chunkOff c (k + 1) < l := mul_lt_of_lt_ceilDiv hc hk
  have hs : chunkOff c (k + 1) = chunkOff c k + c.readChunk := Nat.succ_mul k c.readChunk
  unfold chunkLen
  omega

/-- The page at step k of a program phase is a legal PP payload inside its page (R125, R126). -/
theorem ppOperandsOk_page {d : Bytes} {k : Nat} (hd : imageOk d = true) (hk : k < pageCount d.length) :
    ppOperandsOk (pageAddr k) (pageSlice d (pageAddr k)) = true := by
  have hl : d.length ≤ addrLimit := of_decide_eq_true hd
  have ha : pageAddr k < d.length := mul_lt_of_lt_ceilDiv (by decide) hk
  have hm : pageAddr k % pageLen = 0 := Nat.mul_mod_left k pageLen
  rw [ppOperandsOk_iff, pageSlice, slice_length, hm]
  simp only [addrLimit, pageLen] at hl ⊢
  omega

/-! ### A legal configuration and geometry (R8, R27, R28, R100) -/

theorem readChunk_pos {c : Config} (h : c.wf = true) : 1 ≤ c.readChunk := by
  simp only [Config.wf, Bool.and_eq_true, decide_eq_true_eq] at h
  exact h.1.1

theorem geomLegal_iff (s : State) :
    geomLegal s = true ↔
      s.geom.sectorLen.toNat ≠ 0 ∧ s.geom.sectorLen.toNat % pageLen = 0 ∧
        (s.geom.subValid = true → s.geom.subLen.toNat ≠ 0 ∧ s.geom.subLen.toNat % pageLen = 0) ∧
        s.ident.uid.length = s.cfg.uidLen ∧ s.warn = decide (s.geom.family = .unknown) := by
  cases hs : s.geom.subValid <;> simp [geomLegal, hs, and_assoc]

/-- A legal length is stored as it is: it fits the 32 bits of its register (R27, R28). -/
theorem legalUnitLen_stored {n : Nat} (h : legalUnitLen n = true) :
    (BitVec.ofNat 32 n).toNat ≠ 0 ∧ (BitVec.ofNat 32 n).toNat % pageLen = 0 := by
  simp only [legalUnitLen, Bool.and_eq_true, decide_eq_true_eq] at h
  obtain ⟨⟨h0, h32⟩, hm⟩ := h
  have hn : (BitVec.ofNat 32 n).toNat = n := (BitVec.toNat_ofNat ..).trans (Nat.mod_eq_of_lt h32)
  rw [hn]
  exact ⟨h0.ne', hm⟩

/-- Under a well-formed configuration every chip resolves to a legal descriptor, unknown exactly when the warning says so. -/
theorem resolve_legal {c : Config} (hc : c.wf = true) (m ty : Byte) :
    legalUnitLen (resolve c.geomTable m ty).1.sectorLen = true ∧
      (∀ n, (resolve c.geomTable m ty).1.subsectorLen = some n → legalUnitLen n = true) ∧
      (resolve c.geomTable m ty).2 = decide ((resolve c.geomTable m ty).1.family = .unknown) := by
  simp only [Config.wf, Bool.and_eq_true, List.all_eq_true] at hc
  unfold resolve
  split
  next e he =>
    have hwf := hc.1.2 e (List.mem_of_find?_eq_some he)
    simp only [GeomEntry.wf, Bool.and_eq_true, decide_eq_true_eq] at hwf
    obtain ⟨⟨hf, hs⟩, hsub⟩ := hwf
    refine ⟨hs, fun n hn => ?_, (decide_eq_false hf).symm⟩
    rw [show e.desc.subsectorLen = some n from hn] at hsub
    exact hsub
  next => exact ⟨by decide, by simp [unknownDescriptor], rfl⟩

/-- The unique id of a full RDID answer has UID_LEN bytes (R23, R99). -/
theorem parseIdent_uid_length {uidLen : Nat} {r : Bytes} (h : r.length = 4 + uidLen) :
    (parseIdent uidLen (codecDecode r 1)).uid.length = uidLen := by
  simp only [parseIdent, slice_length, codecDecode_length]
  omega

/-! ### TRACE and its order (R115, R117) -/

theorem orderedAfter_append (b : Option Event) (tr : List Event) (e : Event) :
    orderedAfter b (tr ++ [e]) = (orderedAfter b tr && mayFollow (tr.getLast?.or b) e) := by
  induction tr generalizing b with
  | nil => simp [orderedAfter]
  | cons x xs ih =>
    have hlast : xs.getLast?.or (some x) = (x :: xs).getLast?.or b := by
      cases h : xs.getLast? <;> simp [List.getLast?_cons, h]
    rw [List.cons_append, orderedAfter, ih, hlast, orderedAfter, Bool.and_assoc]

theorem traceOrdered_append (tr : List Event) (e : Event) :
    traceOrdered (tr ++ [e]) = (traceOrdered tr && mayFollow tr.getLast? e) := by
  simp [traceOrdered, orderedAfter_append]

/-- What traceFits asks of one frame. -/
def sendable (c : Config) (g : GeomRegs) (f : Bytes) : Bool :=
  if g.valid then frameFits c g f || decide (f = opRDID :: fill (3 + c.uidLen))
  else decide (f = opRDID :: fill (3 + c.uidLen))

theorem traceFits_eq (s : State) : traceFits s = s.trace.all (fun e => sendable s.cfg s.geom e.frame) := rfl

/-- What frameFits asks of a command beside its well-formedness: the erase unit (R51), the family's register (R109). -/
def unitFits (g : GeomRegs) : Instr → Bool
  | .se a => decide (a % g.sectorLen.toNat = 0)
  | .sse a => g.subValid && decide (a % g.subLen.toNat = 0)
  | .rdsr => decide (g.busy = .status)
  | .rfsr => decide (g.busy = .flag)
  | .rdid _ | .wren | .pp _ _ | .be | .readData _ _ | .identify | .poll | .waitIdle | .eraseSector _ | .eraseSubsector _
  | .eraseBulk | .pageProgram _ _ | .read _ _ | .program _ | .verify _ => true

theorem frameFits_of_decode {f : Bytes} {w : Instr} (c : Config) (g : GeomRegs) (h : decodeFrame f = .ok w) :
    frameFits c g f = (w.wf c && unitFits g w) := by
  simp only [frameFits, h]
  cases w <;> rfl

/-- Before a destructive frame stands a WREN that was answered. -/
theorem mayFollow_destructive {e : Event} {w : Instr} (b : Option Event) (h : decodeFrame e.frame = .ok w)
    (hw : w.isDestructive = true) : mayFollow b e = b.any Event.enablesWrite := by
  simp only [mayFollow, h]
  cases w with
  | pp | se | sse | be => rfl
  | _ => exact Bool.noConfusion hw

/-- WSTATE = IDLE rests on the last event: the poll that reported idle, or a read-data frame after it (R115). -/
def lastRests (tr : List Event) : Bool := tr.getLast?.any (fun e => e.reportsIdle || e.readsData)

theorem idleRests_of_lastRests {s : State} (h : lastRests s.trace = true) : idleRests s = true := by
  unfold lastRests at h
  unfold idleRests
  cases hl : s.trace.getLast? with
  | none => simp [hl] at h
  | some e => simp_all

/-- Away from the destructive frame of a write step nothing else can be last. -/
theorem lastRests_of_idleRests {s : State} (hl : s.pos.line ≠ .destructive ∨ s.seqState = .ready) (h : idleRests s = true) :
    lastRests s.trace = true := by
  unfold idleRests at h
  unfold lastRests
  cases ht : s.trace.getLast? with
  | none => simp [ht] at h
  | some e => cases hl <;> simp_all

theorem Inv.lastRests {s : State} (h : Inv s) (hl : s.pos.line ≠ .destructive ∨ s.seqState = .ready)
    (hw : s.wstate = .idle) : lastRests s.trace = true :=
  lastRests_of_idleRests hl (h.idle hw)

/-! ### The invariant in two parts -/

/-- The part of the invariant that does not speak of the place in the pseudocode, CS or the working registers. -/
structure Kept (s : State) : Prop where
  config : s.cfg.wf = true
  geometry : s.geom.valid = true → geomLegal s = true
  unresolved : s.geom.valid = false → s.wstate = .unknown ∧ s.warn = false
  verified : verifyLegal s = true
  latched : s.req.fits = true
  held : s.hostQ.all Request.fits = true
  buffer : s.rbuf.length ≤ addrLimit
  ordered : traceOrdered s.trace = true
  frames : traceFits s = true

theorem Inv.kept {s : State} (h : Inv s) : Kept s := { h with }

namespace Kept
variable {s : State}

theorem goto (h : Kept s) (l : Line) (p : Phase) : Kept (s.goto l p) := { h with }

theorem setLoop (h : Kept s) (k n a : Nat) : Kept (s.setLoop k n a) := { h with }

theorem finish (h : Kept s) (st : Status) (f : Fields) : Kept (s.finish st f) := { h with }

theorem setRbuf (h : Kept s) {d : Bytes} (hd : d.length ≤ addrLimit) : Kept (s.setRbuf d) := { h with buffer := hd }

theorem setVerify (h : Kept s) {v : VerifyRegs} (hv : verifyLegal (s.setVerify v) = true) : Kept (s.setVerify v) :=
  { h with verified := hv }

theorem afterPoll (h : Kept s) (hg : s.geom.valid = true) : Kept (afterPoll s) :=
  { h with unresolved := fun hv => Bool.noConfusion (hg.symm.trans hv) }

/-- TRACE grows by an event that may follow the last one, with a frame the block may send. -/
theorem sent (h : Kept s) {e : Event} (hm : mayFollow s.trace.getLast? e = true)
    (hf : sendable s.cfg s.geom e.frame = true) : Kept { s with trace := s.trace ++ [e] } :=
  { h with
    ordered := by rw [traceOrdered_append, h.ordered, hm]; rfl
    frames := by
      have := h.frames
      rw [traceFits_eq] at this ⊢
      simp [this, hf] }

theorem received (h : Kept s) {f r : Bytes} (w : Instr) (rest : List Answer)
    (hm : mayFollow s.trace.getLast? ⟨f, .bytes r⟩ = true) (hf : sendable s.cfg s.geom f = true) :
    Kept (s.received w f r rest) :=
  { h.sent hm hf with
    unresolved := fun hg => ⟨by simp [(h.unresolved hg).1], (h.unresolved hg).2⟩ }

theorem failed (h : Kept s) {f : Bytes} {a : Answer} (rest : List Answer)
    (hm : mayFollow s.trace.getLast? ⟨f, a⟩ = true) (hf : sendable s.cfg s.geom f = true) :
    Kept (errorEntry .transportFailure (s.assertCs.endXfer f a rest)) :=
  { h.sent hm hf with unresolved := fun hg => ⟨rfl, (h.unresolved hg).2⟩ }

/-- In READY nothing more is asked than CS = 0 and what WSTATE = IDLE rests on. -/
theorem ready (h : Kept s) (hs : s.seqState = .ready) (hc : s.cs = false)
    (hr : s.wstate = .idle → lastRests s.trace = true) : Inv s :=
  { h with
    deselected := fun _ => hc
    position := fun hx => SeqState.noConfusion (hs.symm.trans hx)
    idle := fun hw => idleRests_of_lastRests (hr hw) }

/-- In EXEC the place has to be one of the request's. -/
theorem exec (h : Kept s) (hx : s.seqState = .exec) (hp : positionOk s = true)
    (hi : s.wstate = .idle → idleRests s = true) : Inv s :=
  { h with
    deselected := fun hs => SeqState.noConfusion (hs.symm.trans hx)
    position := fun _ => hp
    idle := hi }

end Kept

/-! ### The verify registers (R35, R36, R132) -/

theorem verifyLegal_iff (s : State) :
    verifyLegal s = true ↔
      (s.verify.valid = true → s.verify.offsetValid = !s.verify.matched) ∧
        s.verify.winRead.length ≤ s.cfg.verifyWindow ∧ s.verify.winRef.length ≤ s.cfg.verifyWindow := by
  cases hv : s.verify.valid <;> simp [verifyLegal, hv, and_assoc]

theorem verifyWindow_length_le (c : Config) (l : Nat) (buf : Bytes) (off : Nat) :
    (verifyWindow c l buf off).length ≤ c.verifyWindow := by
  rw [verifyWindow, slice_length]
  omega

/-- VERIFY's result is legal: a match has no offset and keeps the old windows, a mismatch writes both. -/
theorem verifyLegal_verifyRegs {s : State} (h : verifyLegal s = true) (ref : Bytes) :
    verifyLegal (s.setVerify (verifyRegs s ref)) = true := by
  rw [verifyLegal_iff] at h ⊢
  simp only [State.setVerify_verify, State.setVerify_cfg, verifyRegs]
  split
  next => exact ⟨fun _ => rfl, h.2⟩
  next => exact ⟨fun _ => rfl, verifyWindow_length_le .., verifyWindow_length_le ..⟩

theorem Kept.verifyCleared {s : State} (h : Kept s) (i : Instr) : Kept (s.verifyCleared i) := by
  unfold State.verifyCleared
  split
  next =>
    refine h.setVerify ?_
    have hv := (verifyLegal_iff s).mp h.verified
    exact (verifyLegal_iff _).mpr ⟨fun hf => Bool.noConfusion hf, hv.2⟩
  next => exact h

/-! ### Between two frames of a request -/

/-- Request `i` is executing, no frame is under way, and WSTATE = IDLE rests on the last event: what holds at the request's first
line and after an answer, whatever the place. -/
structure Running (i : Instr) (s : State) : Prop extends Kept s where
  executing : s.seqState = .exec
  request : decodeRequest s.req = .ok i
  selected : s.cs = false
  rests : s.wstate = .idle → lastRests s.trace = true

namespace Running
variable {i : Instr} {s : State}

theorem goto (h : Running i s) (l : Line) (p : Phase) : Running i (s.goto l p) :=
  { h with toKept := h.toKept.goto l p }

theorem setLoop (h : Running i s) (k n a : Nat) : Running i (s.setLoop k n a) :=
  { h with toKept := h.toKept.setLoop k n a }

theorem setRbuf (h : Running i s) {d : Bytes} (hd : d.length ≤ addrLimit) : Running i (s.setRbuf d) :=
  { h with toKept := h.toKept.setRbuf hd }

theorem setVerify (h : Running i s) {v : VerifyRegs} (hv : verifyLegal (s.setVerify v) = true) :
    Running i (s.setVerify v) := { h with toKept := h.toKept.setVerify hv }

theorem verifyCleared (h : Running i s) : Running i (s.verifyCleared i) := by
  have hk := h.toKept.verifyCleared i
  unfold State.verifyCleared at hk ⊢
  split
  next hc => rw [if_pos hc] at hk; exact { h with toKept := hk }
  next => exact h

/-- The request ends. -/
theorem finish (h : Running i s) (st : Status) (f : Fields) : Inv (s.finish st f) :=
  (h.toKept.finish st f).ready rfl h.selected h.rests

theorem errorEntry (h : Running i s) {e : ErrKind} (he : e ≠ .transportFailure) : Inv (errorEntry e s) := by
  rw [Machine.errorEntry, if_neg he]
  exact h.finish e.status .none

/-- The request goes on at a place its pseudocode has. -/
theorem inv (h : Running i s) (hp : positionOk s = true) : Inv s :=
  h.toKept.exec h.executing hp (fun hw => idleRests_of_lastRests (h.rests hw))

end Running

/-! ### The loop registers (R21) -/

/-- A reading request's loop, for READ and VERIFY alike. -/
theorem loopOk_read {i : Instr} (hr : waitRole i = some .read) (s : State) :
    loopOk i s = readLoopOk s (readAddr i) (readLen i) := by
  obtain ⟨a, l, rfl⟩ | ⟨d, rfl⟩ := waitRole_read hr <;> rfl

/-- A reading request's loop before its first chunk. -/
theorem loopOk_read_wait {i : Instr} {s : State} (hr : waitRole i = some .read) (hl : s.pos.line ≠ .sendRead) :
    loopOk i s = true ↔ 1 ≤ readLen i ∧ readAddr i + readLen i ≤ addrLimit ∧ s.work.a = readAddr i ∧
      s.work.n = chunkCount s.cfg (readLen i) ∧ s.work.i < s.work.n ∧ s.work.i = 0 := by
  simp [loopOk_read hr, readLoopOk, hl, and_assoc]

/-- A reading request's loop at a chunk. -/
theorem loopOk_read_chunk {i : Instr} {s : State} (hr : waitRole i = some .read) (hl : s.pos.line = .sendRead) :
    loopOk i s = true ↔ 1 ≤ readLen i ∧ readAddr i + readLen i ≤ addrLimit ∧ s.work.a = readAddr i ∧
      s.work.n = chunkCount s.cfg (readLen i) ∧ s.work.i < s.work.n ∧ s.rbuf.length = chunkOff s.cfg s.work.i := by
  simp [loopOk_read hr, readLoopOk, hl, and_assoc]

/-- PROGRAM's loop in its erase phase (R123, R124). -/
theorem loopOk_program_erase {d : Bytes} {s : State} (hp : s.pos.phase = .erase) :
    loopOk (.program d) s = true ↔ imageOk d = true ∧ s.work.i < s.work.n ∧
      s.work.n = eraseSteps s.cfg d.length s.geom ∧ s.work.a = eraseAddr s.geom s.work.i := by
  simp [loopOk, hp, and_assoc]

/-- PROGRAM's loop in its program phase (R125). -/
theorem loopOk_program_page {d : Bytes} {s : State} (hp : s.pos.phase = .program) :
    loopOk (.program d) s = true ↔ imageOk d = true ∧ s.work.i < s.work.n ∧
      s.work.n = pageCount d.length ∧ s.work.a = pageAddr s.work.i := by
  simp [loopOk, hp, and_assoc]

/-- Only PROGRAM has an erase and a program phase; the other write steps stand alone (R118 to R122). -/
theorem program_of_phase {i : Instr} {s : State} (hr : waitRole i = some .write) (hl : loopOk i s = true)
    (hp : s.pos.phase ≠ .single) : ∃ d, i = .program d := by
  cases i <;> simp_all [waitRole, loopOk]

/-- In a write step the line makes no difference to the loop registers. -/
theorem loopOk_goto {i : Instr} (hr : waitRole i = some .write) (s : State) (l : Line) :
    loopOk i (s.goto l s.pos.phase) = loopOk i s := by
  cases i with
  | eraseSector | eraseSubsector | eraseBulk | pageProgram | program => rfl
  | _ => simp [waitRole] at hr

/-- Nor do CS, TRACE, the answer, WSTATE and LAST_POLL. -/
@[simp] theorem loopOk_received (i w : Instr) (s : State) (f r : Bytes) (rest : List Answer) :
    loopOk i (s.received w f r rest) = loopOk i s := by
  cases i <;> rfl

@[simp] theorem loopOk_afterPoll (i : Instr) (s : State) : loopOk i (afterPoll s) = loopOk i s := by
  cases i <;> rfl

/-! ### The lines that lead to the next frame keep the invariant -/

namespace Running
variable {i : Instr} {s : State}

/-- A write step begins with its wait (R117). -/
theorem startWriteStep {p : Phase} {k n a : Nat} (h : Running i s) (hr : waitRole i = some .write)
    (hg : s.geom.valid = true) (hl : loopOk i (startWriteStep p k n a s) = true) : Inv (startWriteStep p k n a s) := by
  have hrun := (h.setLoop k n a).goto .waitIdle p
  exact hrun.inv ((positionOk_waitIdle hrun.request rfl).mpr ⟨by rw [hr]; rfl, hg, hl⟩)

theorem startProgramPhase {d : Bytes} (h : Running (.program d) s) (hg : s.geom.valid = true) (hd : imageOk d = true) :
    Inv (startProgramPhase d.length s) := by
  unfold Machine.startProgramPhase
  split
  next => exact h.finish .ok .none
  next hn => exact h.startWriteStep rfl hg ((loopOk_program_page rfl).mpr ⟨hd, Nat.pos_of_ne_zero hn, rfl, rfl⟩)

theorem startErasePhase {d : Bytes} (h : Running (.program d) s) (hg : s.geom.valid = true) (hd : imageOk d = true) :
    Inv (startErasePhase d.length s) := by
  unfold Machine.startErasePhase
  split
  next => exact h.startProgramPhase hg hd
  next hn => exact h.startWriteStep rfl hg ((loopOk_program_erase rfl).mpr ⟨hd, Nat.pos_of_ne_zero hn, rfl, rfl⟩)

/-- The chunks of a read begin with an empty RBUF (R129). -/
theorem beginChunks (h : Running i s) (hr : waitRole i = some .read) (hg : s.geom.valid = true) (hw : s.wstate = .idle)
    (hn : s.pos.line ≠ .sendRead) (hl : loopOk i s = true) : Inv (beginChunks s) := by
  obtain ⟨h1, h2, ha, hc, hi, h0⟩ := (loopOk_read_wait hr hn).mp hl
  have hrun := (h.setRbuf (d := []) (Nat.zero_le _)).goto .sendRead .single
  refine hrun.inv ((positionOk_sendRead hrun.request rfl).mpr ⟨hr, hg, ?_, hw⟩)
  refine (loopOk_read_chunk hr rfl).mpr ⟨h1, h2, ha, hc, hi, ?_⟩
  simp [chunkOff, h0]

/-- A read begins with its chunks or with a wait (R114). -/
theorem startRead (h : Running i s) (hr : waitRole i = some .read) (hg : s.geom.valid = true)
    (hn : s.pos.line ≠ .sendRead) (hl : readLen i ≠ 0) (ha : readAddr i + readLen i ≤ addrLimit) :
    Inv (startRead (readAddr i) (readLen i) s) := by
  have hpos : 0 < chunkCount s.cfg (readLen i) := ceilDiv_pos (readChunk_pos h.config) (Nat.pos_of_ne_zero hl)
  have hrun := h.setLoop 0 (chunkCount s.cfg (readLen i)) (readAddr i)
  unfold Machine.startRead
  split
  next hw =>
    refine hrun.beginChunks hr hg hw hn ((loopOk_read_wait hr ?_).mpr ⟨Nat.pos_of_ne_zero hl, ha, rfl, rfl, hpos, rfl⟩)
    exact hn
  next =>
    have hwait := hrun.goto .waitIdle .single
    refine hwait.inv ((positionOk_waitIdle hwait.request rfl).mpr ⟨by rw [hr]; rfl, hg, ?_⟩)
    exact (loopOk_read_wait hr Line.noConfusion).mpr ⟨Nat.pos_of_ne_zero hl, ha, rfl, rfl, hpos, rfl⟩

/-- A read ends with the request's response (R130, R132). -/
theorem finishRead (h : Running i s) (hr : waitRole i = some .read) : Inv (finishRead i s) := by
  obtain ⟨a, l, rfl⟩ | ⟨d, rfl⟩ := waitRole_read hr
  · exact h.finish .ok _
  · exact (h.setVerify (verifyLegal_verifyRegs h.verified d)).finish .ok _

end Running

/-- What EXEC at a request's first line gives. -/
theorem Inv.running_entry {i : Instr} {s : State} (h : Inv s) (hx : s.seqState = .exec) (hd : decodeRequest s.req = .ok i)
    (hl : s.pos.line = .entry) : Running i s :=
  { h.kept with
    executing := hx
    request := hd
    selected := (positionOk_entry hd hl).mp (h.position hx)
    rests := h.lastRests (.inl (by rw [hl]; exact Line.noConfusion)) }

/-- A request's first line keeps the invariant. -/
theorem EntryRun.keeps {i : Instr} {s t : State} (h : EntryRun s i t) (hrun : Running i s) (hl : s.pos.line = .entry) :
    Inv t := by
  have hc := hrun.verifyCleared
  cases h with
  | rejected e he => exact hc.errorEntry he
  | identify hg =>
    have hto := hrun.goto .sendRdid .single
    exact hto.inv ((positionOk_sendRdid hto.request rfl).mpr ⟨rfl, hg⟩)
  | poll hg =>
    have hto := hrun.goto .pollOnce .single
    exact hto.inv ((positionOk_pollOnce hto.request rfl).mpr ⟨rfl, hg⟩)
  | waitIdle hg =>
    have hto := hrun.goto .waitIdle .single
    exact hto.inv ((positionOk_waitIdle hto.request rfl).mpr ⟨rfl, hg, rfl⟩)
  | write hg hr hloop => exact hrun.startWriteStep hr hg hloop
  | program hg hd => exact hrun.startErasePhase hg hd
  | readNone _ hr => exact (hc.setRbuf (Nat.zero_le _)).finishRead hr
  | read hg hr hlen ha =>
    exact hc.startRead hr (by simpa using hg) (by simp [hl]) hlen ha

/-! ### Every frame at a line is one the block may send (R77, R90 to R98, R115, R117) -/

/-- The status frame polls the family's register (R109). -/
theorem pollInstr_fits (c : Config) (g : GeomRegs) : (pollInstr g).wf c = true ∧ unitFits g (pollInstr g) = true := by
  unfold pollInstr
  split
  next h => exact ⟨rfl, decide_eq_true h⟩
  next h => exact ⟨rfl, decide_eq_true h⟩

theorem eraseSectorOk_iff (a : BitVec 32) (g : GeomRegs) :
    eraseSectorOk a g = true ↔ a.toNat < addrLimit ∧ a.toNat % g.sectorLen.toNat = 0 := by
  simp [eraseSectorOk]

theorem eraseSubsectorOk_iff (a : BitVec 32) (g : GeomRegs) :
    eraseSubsectorOk a g = true ↔ g.subValid = true ∧ a.toNat < addrLimit ∧ a.toNat % g.subLen.toNat = 0 := by
  simp [eraseSubsectorOk, and_assoc]

/-- PAGE_PROGRAM's check covers the payload conditions of PP (R94, R121). -/
theorem ppOperandsOk_of_pageProgramOk {a : BitVec 32} {d : Bytes} (h : pageProgramOk a d = true) :
    ppOperandsOk a.toNat d = true := by
  simp only [pageProgramOk, Bool.and_eq_true, decide_eq_true_eq] at h
  rw [ppOperandsOk_iff]
  omega

/-- The sector at step k of an erase phase begins inside the image, at a multiple of the sector length (R123). -/
theorem eraseAddr_fits {d : Bytes} {g : GeomRegs} {k : Nat} (hd : imageOk d = true) (hs : g.sectorLen.toNat ≠ 0)
    (hk : k < sectorCount d.length g) : eraseAddr g k < addrLimit ∧ eraseAddr g k % g.sectorLen.toNat = 0 :=
  ⟨lt_of_lt_of_le (mul_lt_of_lt_ceilDiv (Nat.pos_of_ne_zero hs) hk) (of_decide_eq_true hd), Nat.mul_mod_left k _⟩

/-- The destructive frame of every write step fits. -/
theorem destructiveInstr_fits {i w : Instr} {s : State} (h : destructiveInstr i s = some w) (hl : loopOk i s = true)
    (hs : s.geom.sectorLen.toNat ≠ 0) : w.wf s.cfg = true ∧ unitFits s.geom w = true := by
  cases i with
  | eraseSector a =>
    cases h
    simp only [loopOk, Bool.and_eq_true, decide_eq_true_eq] at hl
    obtain ⟨⟨hok, -⟩, ha⟩ := hl
    obtain ⟨h1, h2⟩ := (eraseSectorOk_iff a s.geom).mp hok
    rw [ha]
    exact ⟨decide_eq_true h1, decide_eq_true h2⟩
  | eraseSubsector a =>
    cases h
    simp only [loopOk, Bool.and_eq_true, decide_eq_true_eq] at hl
    obtain ⟨⟨hok, -⟩, ha⟩ := hl
    obtain ⟨hv, h1, h2⟩ := (eraseSubsectorOk_iff a s.geom).mp hok
    rw [ha]
    exact ⟨decide_eq_true h1, by simp [unitFits, hv, h2]⟩
  | eraseBulk => cases h; exact ⟨rfl, rfl⟩
  | pageProgram a d =>
    cases h
    simp only [loopOk, Bool.and_eq_true, decide_eq_true_eq] at hl
    obtain ⟨⟨hok, -⟩, ha⟩ := hl
    rw [ha]
    exact ⟨ppOperandsOk_of_pageProgramOk hok, rfl⟩
  | program d =>
    cases hp : s.pos.phase with
    | single => simp [loopOk, hp] at hl
    | erase =>
      obtain ⟨hd, hi, hn, ha⟩ := (loopOk_program_erase hp).mp hl
      cases hst : s.cfg.eraseStrategy with
      | sector =>
        simp only [destructiveInstr, hp, hst, Option.some.injEq] at h
        simp only [eraseSteps, hst] at hn
        obtain ⟨h1, h2⟩ := eraseAddr_fits hd hs (hn ▸ hi)
        rw [← h, ha]
        exact ⟨decide_eq_true h1, decide_eq_true h2⟩
      | bulk =>
        simp only [destructiveInstr, hp, hst, Option.some.injEq] at h
        rw [← h]
        exact ⟨rfl, rfl⟩
    | program =>
      obtain ⟨hd, hi, hn, ha⟩ := (loopOk_program_page hp).mp hl
      simp only [destructiveInstr, hp, Option.some.injEq] at h
      rw [← h, ha]
      exact ⟨ppOperandsOk_page hd (hn ▸ hi), rfl⟩
  | _ => cases h

/-- The frame D of a write step is destructive. -/
theorem destructiveInstr_isDestructive {i w : Instr} {s : State} (h : destructiveInstr i s = some w) :
    w.isDestructive = true := by
  cases i with
  | eraseSector | eraseSubsector | eraseBulk | pageProgram => cases h; rfl
  | program d =>
    simp only [destructiveInstr] at h
    split at h
    next => split at h <;> cases h <;> rfl
    next => cases h; rfl
    next => cases h
  | _ => cases h

/-- Asserting CS leaves a place at a frame line as it is. -/
theorem positionOk_assertCs {i : Instr} {s : State} (hd : decodeRequest s.req = .ok i) (hl : s.pos.line ≠ .entry) :
    positionOk s.assertCs = positionOk s := by
  have hloop : loopOk i s.assertCs = loopOk i s := by cases i <;> rfl
  cases hline : s.pos.line with
  | entry => exact absurd hline hl
  | _ => simp only [positionOk, State.assertCs_req, State.assertCs_pos, hd, hline, hloop]; rfl

/-- A status frame may follow anything. -/
theorem mayFollow_pollInstr {e : Event} {g : GeomRegs} (b : Option Event) (h : decodeFrame e.frame = .ok (pollInstr g)) :
    mayFollow b e = true := by
  cases hb : g.busy <;> simp_all [mayFollow, pollInstr]

section Line
variable {i w : Instr} {f : Bytes} {s : State} (hi : Inv s) (h : AtFrame i w f s)
include hi h

/-- The command at a line is well-formed and fits the geometry; before resolution it is RDID. -/
theorem AtFrame.fits : w.wf s.cfg = true ∧ unitFits s.geom w = true ∧
    (s.geom.valid = true ∨ w = .rdid (3 + s.cfg.uidLen)) := by
  have hd := h.request
  have hp := hi.position h.executing
  obtain ⟨hl, -, rfl⟩ | ⟨hl, -, rfl⟩ | ⟨hl, -, rfl⟩ | ⟨hl, -, rfl⟩ | ⟨hl, hw⟩ | ⟨hl, hr, rfl⟩ := lineInstr_cases h.instr
  · exact ⟨decide_eq_true rfl, rfl, .inr rfl⟩
  · obtain ⟨-, hg⟩ := (positionOk_pollOnce hd hl).mp hp
    exact ⟨(pollInstr_fits ..).1, (pollInstr_fits s.cfg _).2, .inl hg⟩
  · obtain ⟨-, hg, -⟩ := (positionOk_waitIdle hd hl).mp hp
    exact ⟨(pollInstr_fits ..).1, (pollInstr_fits s.cfg _).2, .inl hg⟩
  · obtain ⟨-, hg, -⟩ := (positionOk_sendWren hd hl).mp hp
    exact ⟨rfl, rfl, .inl hg⟩
  · obtain ⟨-, hg, hloop, -⟩ := (positionOk_destructive hd hl).mp hp
    obtain ⟨hs, -⟩ := (geomLegal_iff s).mp (hi.geometry hg)
    obtain ⟨hwf, hu⟩ := destructiveInstr_fits hw hloop hs
    exact ⟨hwf, hu, .inl hg⟩
  · obtain ⟨-, hg, hloop, -⟩ := (positionOk_sendRead hd hl).mp hp
    obtain ⟨-, hrange, ha, hn, hk, -⟩ := (loopOk_read_chunk hr hl).mp hloop
    obtain ⟨h1, h2, h3⟩ := chunk_inside (readChunk_pos hi.config) (hn ▸ hk)
    refine ⟨(readOperandsOk_iff ..).mpr ⟨h1, h2, ?_⟩, rfl, .inl hg⟩
    omega

theorem AtFrame.decodes : decodeFrame f = .ok w := by
  obtain ⟨f', hf, hd⟩ := decodeFrame_encodeFrame (lineInstr_isWire h.instr) (h.fits hi).1
  rwa [Option.some.inj (h.frame.symm.trans hf)]

theorem AtFrame.sendable : sendable s.cfg s.geom f = true := by
  obtain ⟨hwf, hu, hg⟩ := h.fits hi
  have hff := frameFits_of_decode s.cfg s.geom (h.decodes hi)
  rw [hwf, hu] at hff
  unfold Machine.sendable
  split
  next => simp [hff]
  next hn =>
    have hw := hg.resolve_left hn
    have hf := h.frame
    rw [hw] at hf
    exact decide_eq_true (Option.some.inj hf).symm

/-- The last event is one the frame at the line may follow, whatever its answer. -/
theorem AtFrame.mayFollow (a : Answer) : mayFollow s.trace.getLast? ⟨f, a⟩ = true := by
  have hd := h.request
  have hp := hi.position h.executing
  have hdec := h.decodes hi
  obtain ⟨hl, -, rfl⟩ | ⟨hl, -, rfl⟩ | ⟨hl, -, rfl⟩ | ⟨hl, -, rfl⟩ | ⟨hl, hw⟩ | ⟨hl, hr, rfl⟩ := lineInstr_cases h.instr
  · simp [Machine.mayFollow, hdec]
  · exact mayFollow_pollInstr _ hdec
  · exact mayFollow_pollInstr _ hdec
  · obtain ⟨-, -, -, -, hlast⟩ := (positionOk_sendWren hd hl).mp hp
    simpa [Machine.mayFollow, hdec] using hlast
  · obtain ⟨-, -, -, -, hlast⟩ := (positionOk_destructive hd hl).mp hp
    rw [mayFollow_destructive _ hdec (destructiveInstr_isDestructive hw)]
    exact hlast
  · obtain ⟨-, -, -, hidle⟩ := (positionOk_sendRead hd hl).mp hp
    have hlast := hi.lastRests (.inl (by rw [hl]; exact Line.noConfusion)) hidle
    simpa [Machine.mayFollow, hdec, chunkInstr, lastRests] using hlast

theorem AtFrame.kept_received (r : Bytes) (rest : List Answer) : Kept (s.received w f r rest) :=
  hi.kept.received w rest (h.mayFollow hi _) (h.sendable hi)

/-- A failed transfer ends the request with the invariant kept (R143, R147). -/
theorem AtFrame.failed_keeps (a : Answer) (rest : List Answer) :
    Inv (errorEntry .transportFailure (s.assertCs.endXfer f a rest)) :=
  (hi.kept.failed rest (h.mayFollow hi a) (h.sendable hi)).ready rfl rfl (fun hw => WState.noConfusion hw)

/-- A frame that waits keeps the invariant: only CS has changed. -/
theorem AtFrame.waiting_keeps : Inv s.assertCs :=
  { hi with
    deselected := fun hs => SeqState.noConfusion (hs.symm.trans h.executing)
    position := fun hx => (positionOk_assertCs h.request h.line).trans (hi.position hx) }

end Line

/-! ### The answered frame and the lines after it keep the invariant -/

/-- A full answer to a status frame: the skipped byte and the register's byte (R109). -/
theorem reportsIdle_pollFrame (m : BusyMethod) (x b : Byte) :
    Event.reportsIdle ⟨pollFrame m, .bytes [x, b]⟩ = decide (checkBusy m b = .idle) := by
  cases m <;> simp [Event.reportsIdle, pollFrame, pollReportsIdle, opRDSR, opRFSR]

theorem encodeFrame_pollInstr (g : GeomRegs) : encodeFrame (pollInstr g) = some (pollFrame g.busy) := by
  unfold pollInstr
  split <;> next h => rw [h]; rfl

/-- WSTATE = IDLE after a poll says that the last event reported idle. -/
theorem afterPoll_reportsIdle {s : State} {r : Bytes} {rest : List Answer} (hr : r.length = (pollFrame s.geom.busy).length)
    (hw : (afterPoll (s.received (pollInstr s.geom) (pollFrame s.geom.busy) r rest)).wstate = .idle) :
    Event.reportsIdle ⟨pollFrame s.geom.busy, .bytes r⟩ = true := by
  have h2 : r.length = 2 := hr.trans (by cases s.geom.busy <;> rfl)
  obtain ⟨x, b, rfl⟩ := List.length_eq_two.mp h2
  rw [reportsIdle_pollFrame]
  exact decide_eq_true hw

/-- The state in which IDENTIFY responds (R105). -/
def State.identified (s : State) : State :=
  let ident := parseIdent s.cfg.uidLen (codecDecode s.work.resp 1)
  let d := resolve s.cfg.geomTable ident.mfr ident.type
  s.setIdent ident (geomOf d.1 s.geom) d.2

theorem finishIdentify_eq (s : State) : finishIdentify s = respond (identifyFields s.identified) s.identified := rfl

/-- The registers of a resolved chip are legal: its descriptor is, and a full answer holds UID_LEN bytes of unique id. -/
theorem geomLegal_identified {s : State} (hc : s.cfg.wf = true) (hr : s.work.resp.length = 4 + s.cfg.uidLen) :
    geomLegal s.identified = true := by
  obtain ⟨hs, hsub, hwarn⟩ := resolve_legal hc (parseIdent s.cfg.uidLen (codecDecode s.work.resp 1)).mfr
    (parseIdent s.cfg.uidLen (codecDecode s.work.resp 1)).type
  obtain ⟨hs0, hsm⟩ := legalUnitLen_stored hs
  refine (geomLegal_iff _).mpr ⟨hs0, hsm, fun hv => ?_, parseIdent_uid_length hr, hwarn⟩
  obtain ⟨n, hn⟩ := Option.isSome_iff_exists.mp hv
  simpa [State.identified, geomOf, hn] using legalUnitLen_stored (hsub n hn)

/-- Resolving keeps the invariant's general part: every frame before it was RDID (R141). -/
theorem Kept.identified {s : State} (h : Kept s) (hg : s.geom.valid = false) (hr : s.work.resp.length = 4 + s.cfg.uidLen) :
    Kept s.identified :=
  { h with
    geometry := fun _ => geomLegal_identified h.config hr
    unresolved := fun hv => Bool.noConfusion hv
    frames := by
      have hf := h.frames
      rw [traceFits_eq, List.all_eq_true] at hf ⊢
      intro e he
      have hrdid := hf e he
      simp only [sendable, hg] at hrdid
      exact Bool.or_eq_true_iff.mpr (.inr hrdid) }

theorem codecEncode_eq_some {op : Byte} {a : Nat} {p f : Bytes} (h : codecEncode op (some a) p = some f) :
    f = op :: (le24 a ++ p) := by
  by_cases ha : a < addrLimit
  · exact (Option.some.inj ((codecEncode_some op p ha).symm.trans h)).symm
  · rw [codecEncode_large op p (Nat.le_of_not_lt ha)] at h
    cases h

/-- A status frame stands at the lines that poll (R109). -/
theorem eq_pollInstr_of_line {i w : Instr} {s : State} (h : lineInstr i s = some w)
    (hl : s.pos.line = .pollOnce ∨ s.pos.line = .waitIdle) : w = pollInstr s.geom := by
  obtain ⟨hl', -⟩ | ⟨-, -, hw⟩ | ⟨-, -, hw⟩ | ⟨hl', -⟩ | ⟨hl', -⟩ | ⟨hl', -⟩ := lineInstr_cases h
  case inr.inl | inr.inr.inl => exact hw
  all_goals simp [hl'] at hl

/-- After the destructive frame WSTATE is UNKNOWN, so that nothing rests on the last event (R113). -/
theorem AtFrame.running_destructive {i w : Instr} {f : Bytes} {s : State} (hi : Inv s) (h : AtFrame i w f s) (r : Bytes)
    (rest : List Answer) (hl : s.pos.line = .destructive) : Running i (s.received w f r rest) :=
  { h.kept_received hi r rest with
    executing := h.executing
    request := h.request
    selected := rfl
    rests := fun hw => by
      have hd : destructiveInstr i s = some w := by simpa [lineInstr, hl] using h.instr
      simp [destructiveInstr_isDestructive hd] at hw }

section Answered
variable {i w : Instr} {f r : Bytes} {rest : List Answer} {s : State} (hi : Inv s) (h : AtFrame i w f s)
  (hr : r.length = f.length)
include hi h hr

/-- RDID's answer resolves the chip and ends IDENTIFY (R105). -/
theorem AtFrame.identified_keeps (hl : s.pos.line = .sendRdid) : Inv (finishIdentify (s.received w f r rest)) := by
  obtain ⟨rfl, hg⟩ := (positionOk_sendRdid h.request hl).mp (hi.position h.executing)
  obtain rfl : w = .rdid (3 + s.cfg.uidLen) := by simpa [lineInstr, hl, eq_comm] using h.instr
  obtain rfl : opRDID :: fill (3 + s.cfg.uidLen) = f := Option.some.inj h.frame
  have hlen : r.length = 4 + s.cfg.uidLen := by rw [hr, List.length_cons, fill_length]; omega
  have hk := (h.kept_received hi r rest).identified hg hlen
  rw [finishIdentify_eq]
  refine (hk.finish .ok _).ready rfl rfl fun hw => ?_
  exact WState.noConfusion ((hi.unresolved hg).1.symm.trans hw)

/-- A poll's answer: the request is between frames, at a resolved chip, and WSTATE = IDLE says that the answer reported it. -/
theorem AtFrame.running_afterPoll (hw : w = pollInstr s.geom) (hg : s.geom.valid = true) :
    Running i (afterPoll (s.received w f r rest)) ∧
      ((afterPoll (s.received w f r rest)).wstate = .idle →
        (s.received w f r rest).trace.getLast?.any Event.reportsIdle = true) := by
  subst hw
  obtain rfl : pollFrame s.geom.busy = f := Option.some.inj ((encodeFrame_pollInstr s.geom).symm.trans h.frame)
  have hidle (hw : (afterPoll (s.received (pollInstr s.geom) (pollFrame s.geom.busy) r rest)).wstate = .idle) :
      (s.received (pollInstr s.geom) (pollFrame s.geom.busy) r rest).trace.getLast?.any Event.reportsIdle = true := by
    simpa using afterPoll_reportsIdle hr hw
  refine ⟨{ (h.kept_received hi r rest).afterPoll hg with
    executing := h.executing, request := h.request, selected := rfl, rests := fun hw => ?_ }, hidle⟩
  have := hidle hw
  simp_all [lastRests, afterPoll]

/-- SendREAD's frame (R98): the chunk's filler bytes stand behind four header bytes. -/
theorem AtFrame.chunk_answer (hl : s.pos.line = .sendRead) :
    f.head? = some opREAD ∧ r.length = 4 + chunkLen s.cfg (readLen i) s.work.i := by
  obtain ⟨hrole, -⟩ := (positionOk_sendRead h.request hl).mp (hi.position h.executing)
  obtain rfl : chunkInstr s.cfg s.work.a (readLen i) s.work.i = w := by simpa [lineInstr, hl, hrole] using h.instr
  rw [hr, codecEncode_eq_some h.frame]
  exact ⟨rfl, by simp only [List.length_cons, List.length_append, le24_length, fill_length]; omega⟩

/-- A chunk's answer is a read-data frame on which WSTATE = IDLE may rest (R115). -/
theorem AtFrame.running_chunk (hl : s.pos.line = .sendRead) : Running i (s.received w f r rest) :=
  { h.kept_received hi r rest with
    executing := h.executing
    request := h.request
    selected := rfl
    rests := fun _ => by
      obtain ⟨hhead, -⟩ := h.chunk_answer hi hr hl
      simp [lastRests, Event.readsData, Event.answered, hhead, hr] }

/-- RBUF after chunk k: the chunks up to its end (R129). -/
theorem AtFrame.rbuf_length (hl : s.pos.line = .sendRead) :
    (s.rbuf ++ codecDecode r 4).length = chunkOff s.cfg s.work.i + chunkLen s.cfg (readLen i) s.work.i := by
  obtain ⟨hrole, -, hloop, -⟩ := (positionOk_sendRead h.request hl).mp (hi.position h.executing)
  obtain ⟨-, -, -, -, -, hbuf⟩ := (loopOk_read_chunk hrole hl).mp hloop
  obtain ⟨-, hlen⟩ := h.chunk_answer hi hr hl
  rw [List.length_append, codecDecode_length, hbuf, hlen]
  omega

/-- The chunk is appended, and the loop goes on or the request ends (R129, R130, R132). -/
theorem AtFrame.running_appended (hl : s.pos.line = .sendRead) :
    Running i ((s.received w f r rest).setRbuf (s.rbuf ++ codecDecode r 4)) := by
  refine (h.running_chunk hi hr hl).setRbuf ?_
  obtain ⟨hrole, -, hloop, -⟩ := (positionOk_sendRead h.request hl).mp (hi.position h.executing)
  obtain ⟨-, hrange, -, hn, hk, -⟩ := (loopOk_read_chunk hrole hl).mp hloop
  obtain ⟨-, -, hend⟩ := chunk_inside (readChunk_pos hi.config) (hn ▸ hk)
  rw [h.rbuf_length hi hr hl]
  omega

theorem AtFrame.nextChunk_keeps (hl : s.pos.line = .sendRead) (hn : s.work.i + 1 < s.work.n) :
    Inv (((s.received w f r rest).setRbuf (s.rbuf ++ codecDecode r 4)).setLoop (s.work.i + 1) s.work.n s.work.a) := by
  obtain ⟨hrole, hg, hloop, hw⟩ := (positionOk_sendRead h.request hl).mp (hi.position h.executing)
  obtain ⟨h1, hrange, ha, hc, -, -⟩ := (loopOk_read_chunk hrole hl).mp hloop
  have hrun := (h.running_appended hi hr (rest := rest) hl).setLoop (s.work.i + 1) s.work.n s.work.a
  have hnd : w.isDestructive = false := by
    by_contra hd
    exact Line.noConfusion (hl.symm.trans (line_of_isDestructive h.instr (by simpa using hd)))
  refine hrun.inv ((positionOk_sendRead hrun.request hl).mpr ⟨hrole, hg, ?_, by simp [hnd, hw]⟩)
  refine (loopOk_read_chunk hrole ?_).mpr ⟨h1, hrange, ha, hc, hn, ?_⟩
  · exact hl
  · exact (h.rbuf_length hi hr hl).trans (chunkOff_succ (readChunk_pos hi.config) (hc ▸ hn))

/-- WREN's answer leads to the destructive frame, on WSTATE = IDLE still (R93, R117). -/
theorem AtFrame.writeEnabled_keeps (hl : s.pos.line = .sendWren) :
    Inv ((s.received w f r rest).goto .destructive s.pos.phase) := by
  obtain ⟨hrole, hg, hloop, hw, -⟩ := (positionOk_sendWren h.request hl).mp (hi.position h.executing)
  obtain rfl : Instr.wren = w := by simpa [lineInstr, hl, hrole] using h.instr
  obtain rfl : [opWREN] = f := Option.some.inj h.frame
  have hlast : Event.enablesWrite ⟨[opWREN], .bytes r⟩ = true := by simp [Event.enablesWrite, Event.answered, hr]
  have hk := (h.kept_received hi r rest).goto .destructive s.pos.phase
  have hreq : decodeRequest ((s.received .wren [opWREN] r rest).goto .destructive s.pos.phase).req = .ok i := h.request
  refine hk.exec h.executing ((positionOk_destructive hreq rfl).mpr ⟨hrole, hg, ?_, hw, ?_⟩) fun _ => ?_
  · exact (loopOk_goto hrole (s.received .wren [opWREN] r rest) .destructive).trans ((loopOk_received ..).trans hloop)
  · simp [hlast]
  · simp [idleRests, hlast, h.executing]

/-- What a wait's poll leaves, whatever it reported (R110). -/
theorem AtFrame.polled_wait (hl : s.pos.line = .waitIdle) :
    Running i (afterPoll (s.received w f r rest)) ∧ (waitRole i).isSome = true ∧ s.geom.valid = true ∧
      loopOk i (afterPoll (s.received w f r rest)) = true ∧
      ((afterPoll (s.received w f r rest)).wstate = .idle →
        (s.received w f r rest).trace.getLast?.any Event.reportsIdle = true) := by
  obtain ⟨hrole, hg, hloop⟩ := (positionOk_waitIdle h.request hl).mp (hi.position h.executing)
  obtain ⟨hrun, hidle⟩ := h.running_afterPoll hi hr (rest := rest) (eq_pollInstr_of_line h.instr (.inr hl)) hg
  exact ⟨hrun, hrole, hg, by rw [loopOk_afterPoll, loopOk_received, hloop], hidle⟩

/-- The lines after an answered frame keep the invariant. -/
theorem AtFrame.advance_keeps {t : State} (ha : AdvanceRun i (s.received w f r rest) t) : Inv t := by
  have hp := hi.position h.executing
  cases ha with
  | identified hl => exact h.identified_keeps hi hr hl
  | polled hl =>
    obtain ⟨rfl, hg⟩ := (positionOk_pollOnce h.request hl).mp hp
    obtain ⟨hrun, -⟩ := h.running_afterPoll hi hr (rest := rest) (eq_pollInstr_of_line h.instr (.inl hl)) hg
    exact hrun.finish .ok _
  | pollsAgain hl =>
    obtain ⟨hrun, hrole, hg, hloop, -⟩ := h.polled_wait hi hr (rest := rest) hl
    exact hrun.inv ((positionOk_waitIdle hrun.request hl).mpr ⟨hrole, hg, hloop⟩)
  | idleResponds hl =>
    obtain ⟨hrun, -⟩ := h.polled_wait hi hr (rest := rest) hl
    exact hrun.finish .ok _
  | idleWrites hl hw hrole =>
    obtain ⟨hrun, -, hg, hloop, hidle⟩ := h.polled_wait hi hr (rest := rest) hl
    have hto := hrun.goto .sendWren s.pos.phase
    exact hto.inv ((positionOk_sendWren hto.request rfl).mpr
      ⟨hrole, hg, (loopOk_goto hrole _ .sendWren).trans hloop, hw, hidle hw⟩)
  | idleReads hl hw hrole =>
    obtain ⟨hrun, -, hg, hloop, -⟩ := h.polled_wait hi hr (rest := rest) hl
    exact hrun.beginChunks hrole hg hw (fun hn => Line.noConfusion (hl.symm.trans hn)) hloop
  | writeEnabled hl => exact h.writeEnabled_keeps hi hr hl
  | written hl => exact (h.running_destructive hi r rest hl).finish .ok .none
  | nextErase hl hph hn =>
    obtain ⟨hrole, hg, hloop, -⟩ := (positionOk_destructive h.request hl).mp hp
    obtain ⟨d, rfl⟩ := program_of_phase hrole hloop (by simp_all)
    obtain ⟨hd, -, hsteps, -⟩ := (loopOk_program_erase hph).mp hloop
    exact (h.running_destructive hi r rest hl).startWriteStep hrole hg ((loopOk_program_erase rfl).mpr ⟨hd, hn, hsteps, rfl⟩)
  | erased hl hph =>
    obtain ⟨hrole, hg, hloop, -⟩ := (positionOk_destructive h.request hl).mp hp
    obtain ⟨d, rfl⟩ := program_of_phase hrole hloop (by simp_all)
    obtain ⟨hd, -⟩ := (loopOk_program_erase hph).mp hloop
    exact (h.running_destructive hi r rest hl).startProgramPhase hg hd
  | nextPage hl hph hn =>
    obtain ⟨hrole, hg, hloop, -⟩ := (positionOk_destructive h.request hl).mp hp
    obtain ⟨d, rfl⟩ := program_of_phase hrole hloop (by simp_all)
    obtain ⟨hd, -, hpages, -⟩ := (loopOk_program_page hph).mp hloop
    exact (h.running_destructive hi r rest hl).startWriteStep hrole hg ((loopOk_program_page rfl).mpr ⟨hd, hn, hpages, rfl⟩)
  | nextChunk hl _ hn => exact h.nextChunk_keeps hi hr hl hn
  | lastChunk hl hrole => exact (h.running_appended hi hr hl).finishRead hrole

end Answered

/-- Taking the oldest request keeps the invariant: it fits the latch, and stands at its first line (R19, R20). -/
theorem Inv.accept {s : State} (h : Inv s) (hr : s.seqState = .ready) {q : Request} {rest : List Request}
    (hq : s.hostQ = q :: rest) : Inv (s.accept q rest) := by
  have hheld := h.held
  rw [hq, List.all_cons, Bool.and_eq_true] at hheld
  have hk : Kept (s.accept q rest) := { h.kept with latched := hheld.1, held := hheld.2 }
  refine hk.exec rfl ?_ fun hw => idleRests_of_lastRests (h.lastRests (.inr hr) hw)
  cases hd : decodeRequest q <;> simp [positionOk, State.accept, hd, h.deselected hr]

/-- A reserved KIND ends at its first line (R139). -/
theorem Inv.reserved {s : State} {e : Reject} (h : Inv s) (hx : s.seqState = .exec)
    (hd : decodeRequest s.req = .error e) : Inv (errorEntry .invalidRequest s) := by
  obtain ⟨hl, hc⟩ := (positionOk_reserved hd).mp (h.position hx)
  refine (h.kept.finish .invalidRequest .none).ready rfl hc fun hw => ?_
  exact h.lastRests (.inl (by rw [hl]; exact Line.noConfusion)) hw

/-- Settles O43: over the ways a step can go. -/
theorem stepKeepsInvariant : Obligations.StepKeepsInvariant := by
  intro s t hi h
  cases step_run h with
  | waits => exact hi
  | accepts hr hq => exact hi.accept hr hq
  | reserved hx hd => exact hi.reserved hx hd
  | entry hx hd hl he => exact he.keeps (hi.running_entry hx hd hl) hl
  | unanswered hf => exact hf.waiting_keeps hi
  | failed hf => exact hf.failed_keeps hi _ _
  | answered hf _ hr ha => exact hf.advance_keeps hi hr ha

end Sys2Proof.Machine

/-! ## spec/20_memory.md: skipped answer bytes are read by nothing; the reference chip erases, programs and reads -/

namespace Sys2Proof.Machine

/-! ### Skipped and ignored answer bytes (R71, R74, U2) -/

/-- `s` with another TRACE and another raw answer in `resp`: the two places that hold an answer's skipped bytes. -/
def State.reanswered (s : State) (tr : List Event) (r : Bytes) : State :=
  { s with trace := tr, work := { s.work with resp := r } }

@[simp] theorem State.reanswered_pos (s : State) (tr : List Event) (r : Bytes) : (s.reanswered tr r).pos = s.pos := rfl

@[simp] theorem State.reanswered_index (s : State) (tr : List Event) (r : Bytes) :
    (s.reanswered tr r).work.i = s.work.i := rfl

@[simp] theorem State.reanswered_bound (s : State) (tr : List Event) (r : Bytes) :
    (s.reanswered tr r).work.n = s.work.n := rfl

@[simp] theorem State.reanswered_wstate (s : State) (tr : List Event) (r : Bytes) :
    (s.reanswered tr r).wstate = s.wstate := rfl

/-- Two answers to one frame leave states that differ in TRACE and `resp` only. -/
theorem State.received_reanswered (s : State) (w : Instr) (f r r' : Bytes) (rest : List Answer) :
    s.received w f r' rest =
      (s.received w f r rest).reanswered (s.trace ++ [{ frame := f, answer := .bytes r' }]) r' := rfl

/-- The bytes of an answer that the lines after a frame skip; `none`: they ignore the whole answer (R71). -/
def Line.skips : Line → Option Nat
  | .sendRdid | .pollOnce | .waitIdle => some 1
  | .sendRead => some 4
  | .entry | .sendWren | .destructive => none

section Reanswered
variable (i : Instr) {s : State} (tr : List Event) {r : Bytes}

theorem afterPoll_reanswered (h : codecDecode r 1 = codecDecode s.work.resp 1) :
    afterPoll (s.reanswered tr r) = (afterPoll s).reanswered tr r := by
  simp only [afterPoll, State.reanswered, State.setPoll, h]

theorem finishIdentify_reanswered (h : codecDecode r 1 = codecDecode s.work.resp 1) :
    finishIdentify (s.reanswered tr r) = (finishIdentify s).reanswered tr r := by
  have hid : (s.reanswered tr r).identified = s.identified.reanswered tr r := by
    simp only [State.identified, State.reanswered, State.setIdent, h]
  rw [finishIdentify_eq, finishIdentify_eq, hid]
  rfl

theorem finishPoll_reanswered (h : codecDecode r 1 = codecDecode s.work.resp 1) :
    finishPoll (s.reanswered tr r) = (finishPoll s).reanswered tr r := by
  rw [finishPoll, afterPoll_reanswered tr h]
  rfl

theorem afterIdle_reanswered (s : State) (r : Bytes) :
    afterIdle i (s.reanswered tr r) = (afterIdle i s).reanswered tr r := by
  unfold afterIdle
  split <;> rfl

theorem afterWaitPoll_reanswered (h : codecDecode r 1 = codecDecode s.work.resp 1) :
    afterWaitPoll i (s.reanswered tr r) = (afterWaitPoll i s).reanswered tr r := by
  simp only [afterWaitPoll, afterPoll_reanswered tr h, State.reanswered_wstate]
  split
  · exact afterIdle_reanswered i tr (afterPoll s) r
  · rfl

theorem startProgramPhase_reanswered (l : Nat) (s : State) (r : Bytes) :
    startProgramPhase l (s.reanswered tr r) = (startProgramPhase l s).reanswered tr r := by
  unfold startProgramPhase
  split <;> rfl

theorem afterDestructive_reanswered (s : State) (r : Bytes) :
    afterDestructive i (s.reanswered tr r) = (afterDestructive i s).reanswered tr r := by
  unfold afterDestructive
  rw [State.reanswered_pos, State.reanswered_index, State.reanswered_bound]
  split
  · rfl
  · split
    · rfl
    · exact startProgramPhase_reanswered tr (imageLen i) s r
  · split <;> rfl

theorem finishRead_reanswered (s : State) (r : Bytes) :
    finishRead i (s.reanswered tr r) = (finishRead i s).reanswered tr r := by
  cases i <;> rfl

theorem afterChunk_reanswered (h : codecDecode r 4 = codecDecode s.work.resp 4) :
    afterChunk i (s.reanswered tr r) = (afterChunk i s).reanswered tr r := by
  have hb : (s.reanswered tr r).setRbuf ((s.reanswered tr r).rbuf ++ codecDecode (s.reanswered tr r).work.resp 4) =
      (s.setRbuf (s.rbuf ++ codecDecode s.work.resp 4)).reanswered tr r := by
    simp only [State.reanswered, State.setRbuf, h]
  simp only [afterChunk, hb, State.reanswered_index, State.reanswered_bound]
  split
  · rfl
  · exact finishRead_reanswered i tr _ r

/-- The lines after a frame read of the answer only the bytes behind those their line skips. -/
theorem advance_reanswered (h : ∀ k, s.pos.line.skips = some k → codecDecode r k = codecDecode s.work.resp k) :
    advance i (s.reanswered tr r) = (advance i s).reanswered tr r := by
  simp only [advance, State.reanswered_pos]
  cases hl : s.pos.line with
  | entry | sendWren => rfl
  | sendRdid => exact finishIdentify_reanswered tr (h 1 (by rw [hl]; rfl))
  | pollOnce => exact finishPoll_reanswered tr (h 1 (by rw [hl]; rfl))
  | waitIdle => exact afterWaitPoll_reanswered i tr (h 1 (by rw [hl]; rfl))
  | destructive => exact afterDestructive_reanswered i tr s r
  | sendRead => exact afterChunk_reanswered i tr (h 4 (by rw [hl]; rfl))

end Reanswered

/-- The frame at a line that reads its answer: RDID or a status frame, whose first byte is skipped, or a read-data frame, whose
first four are (R90 to R92, R98). -/
theorem instr_of_skips {i w : Instr} {s : State} {k : Nat} (h : lineInstr i s = some w) (hk : s.pos.line.skips = some k) :
    (k = 1 ∧ (w ∈ [.rdsr, .rfsr] ∨ ∃ n, w = .rdid n)) ∨ (k = 4 ∧ ∃ a n, w = .readData a n) := by
  have hpoll : pollInstr s.geom ∈ [Instr.rdsr, .rfsr] := by unfold pollInstr; split <;> simp
  obtain ⟨hl, -, rfl⟩ | ⟨hl, -, rfl⟩ | ⟨hl, -, rfl⟩ | ⟨hl, -⟩ | ⟨hl, -⟩ | ⟨hl, -, rfl⟩ := lineInstr_cases h <;>
    rw [hl] at hk <;> cases hk
  · exact .inl ⟨rfl, .inr ⟨_, rfl⟩⟩
  · exact .inl ⟨rfl, .inl hpoll⟩
  · exact .inl ⟨rfl, .inl hpoll⟩
  · exact .inr ⟨rfl, _, _, rfl⟩

/-- A step at a frame line whose answer has the frame's length: the request's lines run on the answer received. -/
theorem step_received {s : State} {i w : Instr} {f r : Bytes} (rest : List Answer) (h : Latched i s)
    (hl : s.pos.line ≠ .entry) (hw : lineInstr i s = some w) (hf : encodeFrame w = some f) (hr : r.length = f.length) :
    step { s with answers := .bytes r :: rest } = .next (advance i (s.received w f r rest)) := by
  have hs := step_answered (s := { s with answers := .bytes r :: rest }) h.config h.executing h.request hl hw hf rfl hr
  rwa [State.received_eq] at hs

/-- Settles O18: the second answer only exchanges TRACE and `resp` in the state the lines run on, and the lines carry that
exchange through. -/
theorem skippedBytesUnread : Obligations.SkippedBytesUnread := by
  intro s t1 t2 i w f r1 r2 rest h hl hw hf hr1 hr2 hone hfour h1 h2
  rw [step_received rest h hl hw hf hr1, Host.Outcome.next.injEq] at h1
  rw [step_received rest h hl hw hf hr2, Host.Outcome.next.injEq, State.received_reanswered s w f r1 r2,
    advance_reanswered, h1] at h2
  · rw [← h2]; rfl
  · intro k hk
    obtain ⟨rfl, hone'⟩ | ⟨rfl, hfour'⟩ := instr_of_skips hw hk
    · exact (hone hone').symm
    · exact (hfour hfour').symm

/-! ### The reference chip's frames (R68 to R70) -/

section Frames
variable {a : Nat} (ha : a < addrLimit)
include ha

theorem decodeFrame_seFrame : decodeFrame ([0xD8#8] ++ le24 a) = .ok (.se a) :=
  (decodeFrame_se _).trans (decodeAddressed_le24 opSE [] _ ha)

theorem decodeFrame_sseFrame : decodeFrame ([0x20#8] ++ le24 a) = .ok (.sse a) :=
  (decodeFrame_sse _).trans (decodeAddressed_le24 opSSE [] _ ha)

theorem decodeFrame_ppFrame {p : Bytes} (h1 : 1 ≤ p.length) (h2 : p.length ≤ pageLen) :
    decodeFrame ([0x02#8] ++ le24 a ++ p) = .ok (.pp a p) :=
  (decodeFrame_pp _).trans ((decodeAddressed_le24 opPP p _ ha).trans (if_pos ⟨h1, h2⟩))

theorem decodeFrame_readFrame {n : Nat} (hn : 1 ≤ n) :
    decodeFrame ([0x03#8] ++ le24 a ++ List.replicate n 0x00#8) = .ok (.readData a n) :=
  (decodeFrame_readData _).trans
    ((decodeAddressed_le24 opREAD (fill n) _ ha).trans (decodeReadPhase_fill opREAD 4 _ hn))

end Frames

@[simp] theorem Draws.take_length (d : Draws) (k n : Nat) : (d.take k n).length = n := by simp [Draws.take]

@[simp] theorem Flash.read_eraseAll (m : Flash) (k : Nat) : m.eraseAll.read k = some 0xFF#8 := rfl

namespace Chip
variable (c : Chip) (d : Draws)

/-- The array after a subsector erase: the chip's own unit, or, where it has none, a drawn effect (R68, U14; log entry 14). -/
def subsectorErased (a : Nat) : Flash :=
  match c.subsectorLen with
  | none => c.strayed d
  | some n => c.unitErased a n

/-- The array after a read: the draws of bytes that had no value are kept (R64, R70; log entry 14). -/
def afterRead (a n : Nat) : Flash := c.flash.writeRange c.size a (fun k => c.byteAt d k (a + k)) n

theorem serve_se {f : Bytes} {a : Nat} (h : decodeFrame f = .ok (.se a)) :
    (c.serve d f).2 = c.destructive d (c.unitErased a c.sectorLen) := by
  simp only [serve, h]

theorem serve_sse {f : Bytes} {a : Nat} (h : decodeFrame f = .ok (.sse a)) :
    (c.serve d f).2 = c.destructive d (c.subsectorErased d a) := by
  simp only [serve, h, subsectorErased]
  cases c.subsectorLen <;> rfl

theorem serve_be : (c.serve d [0xC7#8]).2 = c.destructive d c.flash.eraseAll := rfl

theorem serve_pp {f p : Bytes} {a : Nat} (h : decodeFrame f = .ok (.pp a p)) :
    (c.serve d f).2 = c.destructive d (c.programmed d a p) := by
  simp only [serve, h]

theorem serve_readData {f : Bytes} {a n : Nat} (h : decodeFrame f = .ok (.readData a n)) :
    c.serve d f =
      (d.take 0 4 ++ (List.range n).map (fun k => c.byteAt d k (a + k)), { c with flash := c.afterRead d a n }) := by
  simp only [serve, h, afterRead]

/-! ### Destructive frames act under WEL on an idle chip only -/

variable {c}

theorem destructive_enabled (m : Flash) (h : c.busyLeft = 0 ∧ c.wel = true) : c.destructive d m = c.begin d m := if_pos h

theorem destructive_ignored (m : Flash) (h : ¬ (c.busyLeft = 0 ∧ c.wel = true)) : c.destructive d m = c := if_neg h

theorem destructive_wf {m : Flash} (hc : c.flash.wf = true) (hm : m.wf = true) : (c.destructive d m).flash.wf = true := by
  unfold destructive
  split
  · exact hm
  · exact hc

/-! ### The array after an erase -/

theorem unitErased_wf (hc : c.flash.wf = true) (a n : Nat) : (c.unitErased a n).wf = true :=
  c.flash.erase_wf c.size _ n hc

theorem subsectorErased_wf (hc : c.flash.wf = true) (a : Nat) : (c.subsectorErased d a).wf = true := by
  unfold subsectorErased
  split
  · exact c.strayed_wf d hc
  · exact unitErased_wf hc a _

/-- An erase of the unit of `n` bytes that contains `a` sets that unit's bytes to ones and no other (R68). -/
theorem read_unitErased (hc : c.flash.wf = true) {n : Nat} (hn : 0 < n) (a k : Nat) :
    (c.unitErased a n).read k = if k / n = a / n ∧ k < c.size then some 0xFF#8 else c.flash.read k := by
  have hunit : (a / n * n ≤ k ∧ k < a / n * n + n ∧ k < c.size) ↔ (k / n = a / n ∧ k < c.size) := by
    rw [← and_assoc, Nat.div_eq_iff hn]
    omega
  rw [unitErased, Flash.erase, Flash.read_writeRange _ _ _ _ _ _ hc]
  simp only [hunit]

/-! ### The array after a program or a read -/

/-- A byte that has a value is the byte a frame finds (R69, R70). -/
theorem byteAt_of_read {a : Nat} {v : Byte} (k : Nat) (ha : a < c.size) (h : c.flash.read a = some v) :
    c.byteAt d k a = v := by
  simp [byteAt, ha, h]

theorem programmed_wf (hc : c.flash.wf = true) (a : Nat) (p : Bytes) : (c.programmed d a p).wf = true :=
  c.flash.writeRange_wf c.size a _ p.length hc

theorem afterRead_wf (hc : c.flash.wf = true) (a n : Nat) : (c.afterRead d a n).wf = true :=
  c.flash.writeRange_wf c.size a _ n hc

/-- A program puts the AND of the old byte and the payload's byte at an address that has a value (R69). -/
theorem read_programmed {a k : Nat} {p : Bytes} {v : Byte} (hc : c.flash.wf = true) (hk : k < p.length)
    (hs : a + k < c.size) (h : c.flash.read (a + k) = some v) :
    (c.programmed d a p).read (a + k) = some (v &&& p.getD k 0#8) := by
  rw [programmed, Flash.read_writeRange _ _ _ _ _ _ hc, if_pos ⟨by omega, by omega, hs⟩, Nat.add_sub_cancel_left,
    byteAt_of_read d k hs h]

/-- A program changes no byte outside its payload's addresses (R69). -/
theorem read_programmed_outside {a k : Nat} {p : Bytes} (hc : c.flash.wf = true) (hk : k < a ∨ a + p.length ≤ k) :
    (c.programmed d a p).read k = c.flash.read k := by
  rw [programmed, Flash.read_writeRange _ _ _ _ _ _ hc, if_neg (by omega)]

/-- A read changes no byte that has a value (R70). -/
theorem read_afterRead {k : Nat} {v : Byte} (hc : c.flash.wf = true) (a n : Nat) (h : c.flash.read k = some v) :
    (c.afterRead d a n).read k = some v := by
  rw [afterRead, Flash.read_writeRange _ _ _ _ _ _ hc]
  split
  next hr => rw [Nat.add_sub_cancel' hr.1, byteAt_of_read d _ hr.2.2 h]
  next => exact h

end Chip

/-- Settles O58: the frames decode to SE, SSE and BE; each is a destructive frame with its own erased array. -/
theorem chipErasesUnits : Obligations.ChipErasesUnits := by
  intro c d a ha hwf
  have hse := c.serve_se d (decodeFrame_seFrame ha)
  have hsse := c.serve_sse d (decodeFrame_sseFrame ha)
  simp only [hse, hsse, c.serve_be d]
  refine ⟨fun hidle => ?_, fun hn => ?_, ?_, ?_, ?_⟩
  · simp only [Chip.destructive_enabled d _ hidle]
    refine ⟨fun hn k => Chip.read_unitErased hwf hn a k, fun n hsub hn k => ?_, fun k _ => c.flash.read_eraseAll k, rfl, rfl⟩
    have hunit : c.subsectorErased d a = c.unitErased a n := by simp only [Chip.subsectorErased, hsub]
    exact hunit ▸ Chip.read_unitErased hwf hn a k
  · exact ⟨Chip.destructive_ignored d _ hn, Chip.destructive_ignored d _ hn, Chip.destructive_ignored d _ hn⟩
  · exact Chip.destructive_wf d hwf (Chip.unitErased_wf hwf a _)
  · exact Chip.destructive_wf d hwf (Chip.subsectorErased_wf d hwf a)
  · exact Chip.destructive_wf d hwf c.flash.eraseAll_wf

/-- Settles O59: a program is a destructive frame that writes ANDs; a read writes back what it found. -/
theorem chipProgramsAndReads : Obligations.ChipProgramsAndReads := by
  intro c d a p n ha h1 h2 hn hwf
  have hpp := c.serve_pp d (decodeFrame_ppFrame ha h1 h2)
  have hrd := c.serve_readData d (decodeFrame_readFrame ha hn)
  simp only [hpp, hrd]
  refine ⟨fun hidle => ?_, Chip.destructive_ignored d _, by simp, fun k v hk hs hv => ?_,
    fun k v => Chip.read_afterRead d hwf a n, ?_, ?_⟩
  · rw [Chip.destructive_enabled d _ hidle]
    exact ⟨fun k v => Chip.read_programmed d hwf, fun k => Chip.read_programmed_outside d hwf⟩
  · rw [List.getElem?_append_right (by simp)]
    simp [hk, Chip.byteAt_of_read d k hs hv]
  · exact Chip.destructive_wf d hwf (Chip.programmed_wf d hwf a p)
  · exact Chip.afterRead_wf d hwf a n

end Sys2Proof.Machine

/-! ## spec/30_encoding.md: words and instructions; a request's ignored fields; one response for each request -/

namespace Sys2Proof

/-! ### From an instruction to its words and back (R72, R73, R79) -/

/-- Every host request's words decode to it (R79). -/
theorem decodeRequest_encodeRequest {i : Instr} (hi : i.isWire = false) :
    ∃ r, encodeRequest i = some r ∧ decodeRequest r = .ok i := by
  cases i
  case identify | poll | waitIdle | eraseSector | eraseSubsector | eraseBulk | pageProgram | read | program | verify =>
    exact ⟨_, rfl, rfl⟩
  all_goals exact Bool.noConfusion hi

/-- Settles O3: a wire command goes through its frame, a host request through its record. -/
theorem decodeInvertsEncode : Obligations.DecodeInvertsEncode := by
  intro c i hwf
  cases hi : i.isWire with
  | true =>
    obtain ⟨f, hf, hd⟩ := decodeFrame_encodeFrame hi hwf
    exact ⟨.frame f, by simp [encode, hi, hf], hd⟩
  | false =>
    obtain ⟨r, hr, hd⟩ := decodeRequest_encodeRequest hi
    exact ⟨.request r, by simp [encode, hi, hr], hd⟩

/-! ### From a frame that decodes back to its command (R73, R75, R78) -/

/-- Three bytes are the le24 of their address, which is below 2^24 (R75). -/
theorem le24_addrOf (b0 b1 b2 : Byte) : le24 (addrOf b0 b1 b2) = [b0, b1, b2] ∧ addrOf b0 b1 b2 < addrLimit := by
  have h0 := b0.isLt
  have h1 := b1.isLt
  have h2 := b2.isLt
  refine ⟨?_, by simp only [addrOf, addrLimit]; omega⟩
  simp only [le24, addrOf, List.cons.injEq, and_true, ← BitVec.toNat_inj, BitVec.toNat_ofNat]
  omega

section Formats
variable {op : Byte} {i j : Instr} {p : Bytes}

theorem decodeBare_ok (h : decodeBare op i p = .ok j) : p = [] ∧ j = i := by
  cases p <;> cases h
  exact ⟨rfl, rfl⟩

theorem decodeNoPayload_ok (h : decodeNoPayload op i p = .ok j) : p = [] ∧ j = i := by
  cases p <;> cases h
  exact ⟨rfl, rfl⟩

theorem decodeReadPhase_ok {header least : Nat} {k : Nat → Instr} (h : decodeReadPhase op header least p k = .ok j) :
    ∃ n, least ≤ n ∧ p = fill n ∧ j = k n := by
  unfold decodeReadPhase at h
  split at h
  · cases h
  next hl =>
    split at h <;> cases h
    next hp => exact ⟨p.length, Nat.le_of_not_lt hl, hp, rfl⟩

theorem decodeStatus_ok (h : decodeStatus op i p = .ok j) : p = fill 1 ∧ j = i := by
  unfold decodeStatus at h
  split at h
  next hl =>
    obtain ⟨n, -, rfl, rfl⟩ := decodeReadPhase_ok h
    obtain rfl : n = 1 := (fill_length n).symm.trans hl
    exact ⟨rfl, rfl⟩
  · cases h

theorem decodeAddressed_ok {k : Nat → Bytes → Except Reject Instr} (h : decodeAddressed op p k = .ok j) :
    ∃ a d, a < addrLimit ∧ p = le24 a ++ d ∧ k a d = .ok j := by
  unfold decodeAddressed at h
  split at h
  next b0 b1 b2 d =>
    obtain ⟨hle, hlt⟩ := le24_addrOf b0 b1 b2
    exact ⟨addrOf b0 b1 b2, d, hlt, by rw [hle]; rfl, h⟩
  · cases h

theorem decodePayload_ok {a : Nat} (h : decodePayload a p = .ok j) : 1 ≤ p.length ∧ p.length ≤ pageLen ∧ j = .pp a p := by
  unfold decodePayload at h
  split at h <;> cases h
  next hp => exact ⟨hp.1, hp.2, rfl⟩

end Formats

/-- The frames that decode, format by format, each with the command it decodes to (R72, R73, R78). -/
inductive FrameOf : Bytes → Instr → Prop where
  | rdid {n : Nat} (hn : 3 ≤ n) : FrameOf (opRDID :: fill n) (.rdid n)
  | rdsr : FrameOf (opRDSR :: fill 1) .rdsr
  | rfsr : FrameOf (opRFSR :: fill 1) .rfsr
  | wren : FrameOf [opWREN] .wren
  | pp {a : Nat} {d : Bytes} (ha : a < addrLimit) (h1 : 1 ≤ d.length) (h2 : d.length ≤ 256) :
      FrameOf (opPP :: (le24 a ++ d)) (.pp a d)
  | se {a : Nat} (ha : a < addrLimit) : FrameOf (opSE :: le24 a) (.se a)
  | sse {a : Nat} (ha : a < addrLimit) : FrameOf (opSSE :: le24 a) (.sse a)
  | be : FrameOf [opBE] .be
  | readData {a n : Nat} (ha : a < addrLimit) (hn : 1 ≤ n) : FrameOf (opREAD :: (le24 a ++ fill n)) (.readData a n)

/-- The inversion of the frame decoder, opcode by opcode. -/
theorem frameOf_of_decodeFrame {f : Bytes} {i : Instr} (h : decodeFrame f = .ok i) : FrameOf f i := by
  cases f with
  | nil => cases h
  | cons op rest =>
    rw [decodeFrame] at h
    split at h
    next ho =>
      obtain ⟨n, hn, rfl, rfl⟩ := decodeReadPhase_ok h
      exact ho ▸ .rdid hn
    split at h
    next ho =>
      obtain ⟨rfl, rfl⟩ := decodeStatus_ok h
      exact ho ▸ .rdsr
    split at h
    next ho =>
      obtain ⟨rfl, rfl⟩ := decodeStatus_ok h
      exact ho ▸ .rfsr
    split at h
    next ho =>
      obtain ⟨rfl, rfl⟩ := decodeBare_ok h
      exact ho ▸ .wren
    split at h
    next ho =>
      obtain ⟨a, d, ha, rfl, hd⟩ := decodeAddressed_ok h
      obtain ⟨h1, h2, rfl⟩ := decodePayload_ok hd
      exact ho ▸ .pp ha h1 h2
    split at h
    next ho =>
      obtain ⟨a, d, ha, rfl, hd⟩ := decodeAddressed_ok h
      obtain ⟨rfl, rfl⟩ := decodeNoPayload_ok hd
      exact ho ▸ .se ha
    split at h
    next ho =>
      obtain ⟨a, d, ha, rfl, hd⟩ := decodeAddressed_ok h
      obtain ⟨rfl, rfl⟩ := decodeNoPayload_ok hd
      exact ho ▸ .sse ha
    split at h
    next ho =>
      obtain ⟨rfl, rfl⟩ := decodeBare_ok h
      exact ho ▸ .be
    split at h
    next ho =>
      obtain ⟨a, d, ha, rfl, hd⟩ := decodeAddressed_ok h
      obtain ⟨n, hn, rfl, rfl⟩ := decodeReadPhase_ok hd
      exact ho ▸ .readData ha hn
    next => cases h

/-- Settles O4: format by format, the frame is the one the codec builds. -/
theorem encodeInvertsFrameDecode : Obligations.EncodeInvertsFrameDecode := by
  intro f i h
  cases frameOf_of_decodeFrame h with
  | rdid | rdsr | rfsr | wren | be => rfl
  | pp ha => exact codecEncode_some opPP _ ha
  | se ha => exact codecEncode_some opSE [] ha
  | sse ha => exact codecEncode_some opSSE [] ha
  | readData ha => exact codecEncode_some opREAD _ ha

/-- Settles O5: the opcode and the length are read off the frame's format; the clauses of the other opcodes are void, since the
nine are distinct. -/
theorem onlyNineOpcodesDecode : Obligations.OnlyNineOpcodesDecode := by
  refine ⟨by decide, fun f i h => ?_⟩
  cases frameOf_of_decodeFrame h with
  | rdsr | rfsr | wren | be => exact ⟨rfl, _, _, rfl, by decide, by decide⟩
  | rdid | pp | se | sse | readData =>
    refine ⟨rfl, _, _, rfl, by decide, ?_⟩
    simp [opRDID, opRDSR, opRFSR, opWREN, opPP, opSE, opSSE, opBE, opREAD] <;> omega

/-- Settles O6: the decoder run on each of the spec's words. -/
theorem specWordsDecode : Obligations.SpecWordsDecode :=
  ⟨rfl, rfl, rfl, rfl, rfl, rfl, rfl, rfl, rfl, rfl, rfl, rfl, rfl⟩

end Sys2Proof

namespace Sys2Proof.Machine

/-! ### One response for each request (R14, R18, R82) -/

/-- Every way a step in EXEC can go gives no response, or one, with which the request ends. -/
theorem StepRun.ends {s t : State} (h : StepRun s t) (hx : s.seqState = .exec) : EndsAtMostOnce s t := by
  cases h with
  | waits hr => exact SeqState.noConfusion (hx.symm.trans hr)
  | accepts hr => exact SeqState.noConfusion (hx.symm.trans hr)
  | reserved => exact endsAtMostOnce_errorEntry rfl _
  | entry _ _ _ he => exact he.ends
  | unanswered => exact .inl ⟨rfl, rfl, rfl⟩
  | failed _ _ _ => exact endsAtMostOnce_errorEntry (t := s.assertCs.endXfer _ _ _) rfl _
  | answered _ _ _ ha => exact ha.ends

theorem step_ready {s t : State} (hr : s.seqState = .ready) (h : step s = .next t) : t = acceptStep s := by
  simp only [step, hr] at h
  split at h <;> cases h
  rfl

/-- Accepting a request, or waiting for one, gives no response (R20). -/
theorem acceptStep_responses (s : State) : (acceptStep s).responses = s.responses := by
  unfold acceptStep
  split <;> rfl

/-- Settles O41: READY gives no response; in EXEC a response is what ends the request. -/
theorem oneResponsePerRequest : Obligations.OneResponsePerRequest := by
  intro s t h
  cases hx : s.seqState with
  | ready =>
    obtain rfl := step_ready hx h
    exact .inl ⟨acceptStep_responses s, SeqState.noConfusion⟩
  | exec =>
    obtain ⟨hr, -, hs⟩ | ⟨r, hr, hl, hs, hf⟩ := (step_run h).ends hx
    · exact .inl ⟨hr, fun _ => hs.trans hx⟩
    · exact .inr ⟨rfl, hs, r, hr, hl, hf⟩

/-! ### The latched request is read by the decoder only (R81) -/

/-- The fields R79 gives a kind are the ones its decoding reads. -/
theorem decodeRequest_congr {r q : Request} (hk : r.kind = q.kind) (ha : r.kind ∈ [4#4, 5#4, 7#4, 8#4] → r.addr = q.addr)
    (hl : r.kind = 8#4 → r.len = q.len) (hd : r.kind ∈ [7#4, 9#4, 10#4] → r.data = q.data) :
    decodeRequest r = decodeRequest q := by
  have mem {k : BitVec 4} (h : r.kind.toNat = k.toNat) : r.kind = k := BitVec.eq_of_toNat_eq h
  unfold decodeRequest
  rw [← hk]
  split
  next => rfl
  next => rfl
  next => rfl
  next h => rw [ha (by simp [mem (k := 4#4) h])]
  next h => rw [ha (by simp [mem (k := 5#4) h])]
  next => rfl
  next h => rw [ha (by simp [mem (k := 7#4) h]), hd (by simp [mem (k := 7#4) h])]
  next h => rw [ha (by simp [mem (k := 8#4) h]), hl (mem h)]
  next h => rw [hd (by simp [mem (k := 9#4) h])]
  next h => rw [hd (by simp [mem (k := 10#4) h])]
  next => rfl

/-- `s` with another request in the latch. -/
def State.relatched (s : State) (q : Request) : State := { s with req := q }

/-- The same outcome, but for the latched request of a next state. -/
def relatchedOutcome (q : Request) : Host.Outcome State Fault Refusal → Host.Outcome State Fault Refusal
  | .next t => .next (t.relatched q)
  | .fault f => .fault f
  | .refused e => .refused e

/-- An Xfer answered by `fail` or with another length fails. -/
theorem xfer_failed {s : State} {f : Bytes} {a : Answer} {rest : List Answer} (ha : s.answers = a :: rest)
    (hn : ∀ r, a = .bytes r → r.length ≠ f.length) : xfer f s = .failed (s.assertCs.endXfer f a rest) := by
  cases a with
  | fail => exact xfer_fail ha
  | bytes r => exact xfer_wrongLength ha (hn r rfl)

/-- A branch commutes with what both its ends commute with. -/
theorem ite_commutes {α β : Type} (g : α → β) {c : Prop} {_ : Decidable c} {x y : α} {x' y' : β} (hx : x' = g x)
    (hy : y' = g y) : (if c then x' else y') = g (if c then x else y) := by
  rw [hx, hy, apply_ite g]

section Relatched
variable (s : State) (q : Request)

@[simp] theorem State.relatched_seqState : (s.relatched q).seqState = s.seqState := rfl
@[simp] theorem State.relatched_req : (s.relatched q).req = q := rfl
@[simp] theorem State.relatched_pos : (s.relatched q).pos = s.pos := rfl

theorem errorEntry_relatched (e : ErrKind) : errorEntry e (s.relatched q) = (errorEntry e s).relatched q := by
  simp only [errorEntry_eq, State.relatched]

theorem startProgramPhase_relatched (l : Nat) :
    startProgramPhase l (s.relatched q) = (startProgramPhase l s).relatched q :=
  ite_commutes (State.relatched · q) rfl rfl

theorem startErasePhase_relatched (l : Nat) :
    startErasePhase l (s.relatched q) = (startErasePhase l s).relatched q :=
  ite_commutes (State.relatched · q) (startProgramPhase_relatched s q l) rfl

theorem startRead_relatched (a l : Nat) : startRead a l (s.relatched q) = (startRead a l s).relatched q :=
  ite_commutes (State.relatched · q) rfl rfl

/-- A frame is sent alike, when the lines after it go on alike. -/
theorem sendFrame_relatched (f : Option Bytes) {k : State → State} (hk : ∀ t, k (t.relatched q) = (k t).relatched q) :
    sendFrame f k (s.relatched q) = relatchedOutcome q (sendFrame f k s) := by
  cases f with
  | none => rfl
  | some f =>
    obtain ⟨ha, h⟩ | ⟨r, rest, ha, hl, h⟩ | ⟨a, rest, ha, hn, h⟩ := xfer_cases f s
    · simp only [sendFrame, h, xfer_waiting f (s := s.relatched q) ha, relatchedOutcome]
      rfl
    · simp only [sendFrame, h, xfer_answered (s := s.relatched q) ha hl, relatchedOutcome, ← hk]
      rfl
    · simp only [sendFrame, h, xfer_failed (s := s.relatched q) ha hn, raise_eq, relatchedOutcome, ← errorEntry_relatched]
      rfl

theorem exec_wire_relatched {i : Instr} (hi : i.isWire = true) :
    exec i (s.relatched q) = relatchedOutcome q (exec i s) := by
  rw [exec_wire hi, exec_wire hi]
  refine sendFrame_relatched s q _ fun t => ?_
  split <;> rfl

/-- A request whose checks read the geometry only ends alike, when what follows the checks does. -/
theorem checked_relatched {g ok : Bool} {o o' : Host.Outcome State Fault Refusal} (h : o' = relatchedOutcome q o) :
    (if g = false then raise .notResolved (s.relatched q) else if ok then o' else raise .invalidArgument (s.relatched q)) =
      relatchedOutcome q (if g = false then raise .notResolved s else if ok then o else raise .invalidArgument s) := by
  subst h
  cases g <;> cases ok <;> rfl

theorem exec_request_relatched {i : Instr} (hi : i.isWire = false) :
    exec i (s.relatched q) = relatchedOutcome q (exec i s) := by
  cases i with
  | identify | poll | waitIdle | eraseBulk => exact ite_commutes (relatchedOutcome q) rfl rfl
  | eraseSector a => exact checked_relatched s q rfl
  | eraseSubsector a => exact checked_relatched s q rfl
  | pageProgram a d => exact checked_relatched s q rfl
  | program d => exact checked_relatched s q (congrArg Host.Outcome.next (startErasePhase_relatched s q d.length))
  | read a l =>
    refine checked_relatched s q ?_
    exact ite_commutes (relatchedOutcome q) rfl
      (congrArg Host.Outcome.next (startRead_relatched s q a.toNat l.toNat))
  | verify d =>
    refine checked_relatched (s.verifyCleared (.verify d)) q ?_
    exact ite_commutes (relatchedOutcome q) rfl
      (congrArg Host.Outcome.next (startRead_relatched (s.verifyCleared (.verify d)) q 0 d.length))
  | _ => exact Bool.noConfusion hi

/-- An instruction's meaning does not read the latch. -/
theorem exec_relatched (i : Instr) : exec i (s.relatched q) = relatchedOutcome q (exec i s) := by
  cases hi : i.isWire with
  | true => exact exec_wire_relatched s q hi
  | false => exact exec_request_relatched s q hi

/-- Which frame stands at the position is read off the decoded request, not the latch. -/
@[simp] theorem lineInstr_relatched (i : Instr) : lineInstr i (s.relatched q) = lineInstr i s := rfl

theorem afterDestructive_relatched (i : Instr) :
    afterDestructive i (s.relatched q) = (afterDestructive i s).relatched q := by
  rw [afterDestructive, afterDestructive, State.relatched_pos]
  cases s.pos.phase with
  | single => rfl
  | erase => exact ite_commutes (State.relatched · q) rfl (startProgramPhase_relatched s q (imageLen i))
  | program => exact ite_commutes (State.relatched · q) rfl rfl

theorem afterIdle_relatched (i : Instr) : afterIdle i (s.relatched q) = (afterIdle i s).relatched q := by
  unfold afterIdle
  split <;> rfl

theorem afterWaitPoll_relatched (i : Instr) : afterWaitPoll i (s.relatched q) = (afterWaitPoll i s).relatched q :=
  ite_commutes (State.relatched · q) (afterIdle_relatched (afterPoll s) q i) rfl

theorem finishRead_relatched (i : Instr) : finishRead i (s.relatched q) = (finishRead i s).relatched q := by
  cases i <;> rfl

theorem afterChunk_relatched (i : Instr) : afterChunk i (s.relatched q) = (afterChunk i s).relatched q :=
  ite_commutes (State.relatched · q) rfl
    (finishRead_relatched (s.setRbuf (s.rbuf ++ codecDecode s.work.resp 4)) q i)

/-- The lines after a frame do not read the latch. -/
theorem advance_relatched (i : Instr) : advance i (s.relatched q) = (advance i s).relatched q := by
  simp only [advance, State.relatched_pos]
  cases s.pos.line with
  | entry | sendRdid | pollOnce | sendWren => rfl
  | waitIdle => exact afterWaitPoll_relatched s q i
  | destructive => exact afterDestructive_relatched s q i
  | sendRead => exact afterChunk_relatched s q i

theorem afterFrame_relatched (i : Instr) : afterFrame i (s.relatched q) = (afterFrame i s).relatched q :=
  ite_commutes (State.relatched · q) rfl (advance_relatched s q i)

theorem frameStep_relatched (i : Instr) : frameStep i (s.relatched q) = relatchedOutcome q (frameStep i s) := by
  simp only [frameStep, lineInstr_relatched]
  cases lineInstr i s with
  | none => rfl
  | some w =>
    simp only [exec_relatched]
    cases exec w s with
    | next t => exact congrArg Host.Outcome.next (afterFrame_relatched t q i)
    | fault | refused => rfl

theorem execStep_relatched (hq : decodeRequest q = decodeRequest s.req) :
    execStep (s.relatched q) = relatchedOutcome q (execStep s) := by
  rw [execStep, execStep, State.relatched_req, hq]
  cases decodeRequest s.req with
  | error e => exact congrArg Host.Outcome.next (errorEntry_relatched s q .invalidRequest)
  | ok i => exact ite_commutes (relatchedOutcome q) (exec_relatched s q i) (frameStep_relatched s q i)

/-- A step in EXEC reads of the latch what it decodes to, and no more. -/
theorem step_relatched (hx : s.seqState = .exec) (hq : decodeRequest q = decodeRequest s.req) :
    step (s.relatched q) = relatchedOutcome q (step s) := by
  simp only [step, State.relatched_seqState, hx]
  exact ite_commutes (relatchedOutcome q) (execStep_relatched s q hq) rfl

end Relatched

/-- Settles O7: the two requests decode alike, and the step depends on the latch through its decoding only. -/
theorem ignoredRequestFieldsUnread : Obligations.IgnoredRequestFieldsUnread := by
  intro r q hk ha hl hd
  have hdec : decodeRequest r = decodeRequest q := decodeRequest_congr hk ha hl hd
  refine ⟨hdec, fun s hx hr => ?_⟩
  have hs : step { s with req := q } = relatchedOutcome q (step s) := step_relatched s q hx (hr ▸ hdec.symm)
  exact ⟨fun t ht => by rw [hs, ht]; rfl, fun f hf => by rw [hs, hf]; rfl, fun e he => by rw [hs, he]; rfl⟩

end Sys2Proof.Machine

/-! ## spec/40_frame_codec.md: the codec's round trips; an answered wire command completes; an address out of range is a fault -/

namespace Sys2Proof

/-! ### The address bytes (R75, R85 to R88) -/

theorem decodeAddr_le24 {a : Nat} (h : a < addrLimit) : decodeAddr (le24 a) = some a :=
  congrArg some (addrOf_le24 h)

/-- The three bytes of `le24` are the base-256 digits of the address, the lowest first (R75). -/
theorem le24_digits {a : Nat} (h : a < addrLimit) :
    ∃ b0 b1 b2 : Byte, le24 a = [b0, b1, b2] ∧ b0.toNat = a % 256 ∧ b1.toNat = a / 256 % 256 ∧ b2.toNat = a / 65536 := by
  have htop : a / 65536 < 256 := Nat.div_lt_of_lt_mul h
  exact ⟨_, _, _, rfl, BitVec.toNat_ofNat a 8, BitVec.toNat_ofNat (a / 256) 8,
    (BitVec.toNat_ofNat (a / 65536) 8).trans (Nat.mod_eq_of_lt htop)⟩

/-- The address stands right after the opcode (R85). -/
theorem slice_addressed (op : Byte) (a : Nat) (p : Bytes) : slice (op :: (le24 a ++ p)) 1 4 = le24 a := rfl

/-- Settles O1: `le24` writes the digits, `decodeAddr` reads them back, and a frame with an address has them in positions 1 to 3. -/
theorem addressRoundTrip : Obligations.AddressRoundTrip := by
  intro a ha
  refine ⟨le24_digits ha, decodeAddr_le24 ha, fun op p f hf => ?_⟩
  rw [Machine.codecEncode_eq_some hf, slice_addressed]
  exact decodeAddr_le24 ha

/-- Settles O2: `encode` by whether the address is absent, below the limit or beyond it; `decode` is `List.drop`. -/
theorem codecConcatenatesAndDrops : Obligations.CodecConcatenatesAndDrops := by
  intro op p
  refine ⟨codecEncode_none op p, ?_, ?_, fun skip => ⟨?_, ?_⟩⟩
  · exact fun a ha => codecEncode_some op p ha
  · exact fun a ha => codecEncode_large op p ha
  · exact fun k => List.getElem?_drop
  · exact List.drop_eq_nil_of_le

end Sys2Proof

namespace Sys2Proof.Machine

/-! ### A wire command answered, and one with no frame (R86, R90 to R98, R113) -/

/-- A wire command answered with its frame's length receives the answer. -/
theorem exec_received {s : State} {w : Instr} {f r : Bytes} {rest : List Answer} (hw : w.isWire = true)
    (hf : encodeFrame w = some f) (ha : s.answers = .bytes r :: rest) (hl : r.length = f.length) :
    exec w s = .next (s.received w f r rest) := by
  rw [exec_wire hw, hf, ← State.received_eq]
  simp only [sendFrame, xfer_answered ha hl]

/-- A wire command that has no frame is the fault of its address. -/
theorem exec_no_frame {w : Instr} (s : State) (hw : w.isWire = true) (hf : encodeFrame w = none) :
    exec w s = .fault .addressOutOfRange := by
  rw [exec_wire hw, hf]
  rfl

/-- Settles O13: each is a wire command with the named frame and not destructive, so its answer is received and WSTATE kept. -/
theorem plainFramesComplete : Obligations.PlainFramesComplete := by
  intro s i f r rest hi ha hl
  have hplain : i.isWire = true ∧ i.isDestructive = false ∧ encodeFrame i = some f := by
    obtain ⟨n, rfl, rfl⟩ | ⟨rfl, rfl⟩ | ⟨rfl, rfl⟩ | ⟨a, n, h24, rfl, rfl⟩ | ⟨rfl, rfl⟩ := hi
    case inr.inr.inr.inl => exact ⟨rfl, rfl, codecEncode_some opREAD (fill n) h24⟩
    all_goals exact ⟨rfl, rfl, rfl⟩
  obtain ⟨hw, hd, hf⟩ := hplain
  rw [exec_received hw hf ha hl]
  simp [State.received, hd]

/-- Settles O14: each is a destructive wire command with the named frame, so its answer is received and WSTATE set. -/
theorem destructiveFramesComplete : Obligations.DestructiveFramesComplete := by
  intro s i f r rest hi ha hl
  have hdestr : i.isWire = true ∧ i.isDestructive = true ∧ encodeFrame i = some f := by
    obtain ⟨a, d, h24, rfl, rfl⟩ | ⟨a, h24, rfl, rfl⟩ | ⟨a, h24, rfl, rfl⟩ | ⟨rfl, rfl⟩ := hi
    · exact ⟨rfl, rfl, codecEncode_some opPP d h24⟩
    · exact ⟨rfl, rfl, codecEncode_some opSE [] h24⟩
    · exact ⟨rfl, rfl, codecEncode_some opSSE [] h24⟩
    · exact ⟨rfl, rfl, rfl⟩
  obtain ⟨hw, hd, hf⟩ := hdestr
  rw [exec_received hw hf ha hl]
  simp [State.received, hd]

/-- Settles O17: `encode` builds no frame for an address beyond the limit. -/
theorem addressBeyondLimitFaults : Obligations.AddressBeyondLimitFaults := by
  intro s a n d ha
  have hnone (op : Byte) (p : Bytes) : codecEncode op (some a) p = none := codecEncode_large op p ha
  exact ⟨exec_no_frame s rfl (hnone opPP d), exec_no_frame s rfl (hnone opSE []), exec_no_frame s rfl (hnone opSSE []),
    exec_no_frame s rfl (hnone opREAD (fill n))⟩

end Sys2Proof.Machine

/-! ## spec/41_geometry.md: which configurations are refused; what resolve answers; IDENTIFY, and the geometry after it -/

namespace Sys2Proof

/-! ### A well-formed configuration, check by check (R8, R100, R161) -/

theorem Config.wf_iff (c : Config) :
    c.wf = true ↔ 1 ≤ c.readChunk ∧ (∀ e ∈ c.geomTable, e.wf = true) ∧ distinctKeys c.geomTable = true := by
  simp [Config.wf, and_assoc]

/-- A configuration that is not well-formed fails one of the three checks. -/
theorem Config.wf_eq_false_iff (c : Config) :
    c.wf = false ↔ c.readChunk = 0 ∨ (∃ e ∈ c.geomTable, e.wf = false) ∨ distinctKeys c.geomTable = false := by
  simp only [Config.wf, Bool.and_eq_false_iff, decide_eq_false_iff_not, Nat.not_le, Nat.lt_one_iff, List.all_eq_false,
    Bool.not_eq_true, or_assoc]

theorem legalUnitLen_eq_false_iff (n : Nat) : legalUnitLen n = false ↔ n = 0 ∨ 2 ^ 32 ≤ n ∨ n % 256 ≠ 0 := by
  simp [legalUnitLen, or_assoc, imp_iff_not_or]

theorem GeomEntry.wf_iff (e : GeomEntry) :
    e.wf = true ↔
      e.desc.family ≠ .unknown ∧ legalUnitLen e.desc.sectorLen = true ∧
        ∀ n, e.desc.subsectorLen = some n → legalUnitLen n = true := by
  cases hsub : e.desc.subsectorLen <;> simp [GeomEntry.wf, hsub, and_assoc]

/-- The clauses of R100 that one entry can break. -/
theorem GeomEntry.wf_eq_false_iff (e : GeomEntry) :
    e.wf = false ↔
      e.desc.sectorLen = 0 ∨ 2 ^ 32 ≤ e.desc.sectorLen ∨ e.desc.sectorLen % 256 ≠ 0 ∨ e.desc.family = .unknown ∨
        ∃ n, e.desc.subsectorLen = some n ∧ (n = 0 ∨ 2 ^ 32 ≤ n ∨ n % 256 ≠ 0) := by
  have hsub : (¬ ∀ n, e.desc.subsectorLen = some n → legalUnitLen n = true) ↔
      ∃ n, e.desc.subsectorLen = some n ∧ (n = 0 ∨ 2 ^ 32 ≤ n ∨ n % 256 ≠ 0) := by
    simp only [not_forall, Bool.not_eq_true, legalUnitLen_eq_false_iff, exists_prop]
  rw [← Bool.not_eq_true, e.wf_iff, not_and_or, not_and_or, not_not, Bool.not_eq_true, legalUnitLen_eq_false_iff, hsub,
    or_left_comm, or_assoc, or_assoc]

/-- Two entries have one key (R100). -/
def GeomEntry.SameKey (e f : GeomEntry) : Prop := e.mfr = f.mfr ∧ e.type = f.type

theorem GeomEntry.SameKey.symm {e f : GeomEntry} (h : e.SameKey f) : f.SameKey e := ⟨h.1.symm, h.2.symm⟩

theorem distinctKeys_iff (table : List GeomEntry) :
    distinctKeys table = true ↔ table.Pairwise (fun e f => ¬ e.SameKey f) := by
  induction table with
  | nil => simp [distinctKeys]
  | cons e rest ih => simp [distinctKeys, ih, GeomEntry.SameKey, eq_comm (a := e.mfr), eq_comm (a := e.type), imp_iff_not_or]

/-- In a table with distinct keys an entry is determined by its key. -/
theorem eq_of_sameKey {table : List GeomEntry} (hk : distinctKeys table = true) {e f : GeomEntry} (he : e ∈ table)
    (hf : f ∈ table) (h : e.SameKey f) : e = f := by
  by_contra hne
  have : Std.Symm fun e f : GeomEntry => ¬ e.SameKey f := ⟨fun _ _ hn h => hn h.symm⟩
  exact ((distinctKeys_iff table).mp hk).forall he hf hne h

/-- Keys that are not distinct show at two places of the table. -/
theorem distinctKeys_eq_false_iff (table : List GeomEntry) :
    distinctKeys table = false ↔
      ∃ (pre mid post : List GeomEntry) (e f : GeomEntry), table = pre ++ e :: mid ++ f :: post ∧ e.SameKey f := by
  rw [← Bool.not_eq_true, distinctKeys_iff]
  constructor
  · intro h
    induction table with
    | nil => exact absurd .nil h
    | cons e rest ih =>
      by_cases hrest : rest.Pairwise fun e f => ¬ e.SameKey f
      · obtain ⟨f, hf, hs⟩ : ∃ f ∈ rest, e.SameKey f := by simpa [hrest] using h
        obtain ⟨mid, post, rfl⟩ := List.append_of_mem hf
        exact ⟨[], mid, post, e, f, rfl, hs⟩
      · obtain ⟨pre, mid, post, e', f, rfl, hs⟩ := ih hrest
        exact ⟨e :: pre, mid, post, e', f, rfl, hs⟩
  · rintro ⟨pre, mid, post, e, f, rfl, hs⟩ h
    exact (List.pairwise_append.mp h).2.2 e (by simp) f (by simp) hs

end Sys2Proof

namespace Sys2Proof.Machine

/-! ### No step of a well-formed configuration is refused (R100, U9) -/

/-- A branch goes on when both its ends do. -/
theorem ite_next {c : Prop} {_ : Decidable c} {x y : Host.Outcome State Fault Refusal} (hx : ∃ t, x = .next t)
    (hy : ∃ t, y = .next t) : ∃ t, (if c then x else y) = .next t := by
  split
  · exact hx
  · exact hy

/-- A host request's first line always goes on: to its first frame, to its response, or to an error's. -/
theorem exec_request_next {i : Instr} (hi : i.isWire = false) (s : State) : ∃ t, exec i s = .next t := by
  cases i with
  | identify | poll | waitIdle | eraseBulk => exact ite_next ⟨_, rfl⟩ ⟨_, rfl⟩
  | eraseSector | eraseSubsector | pageProgram | program => exact ite_next ⟨_, rfl⟩ (ite_next ⟨_, rfl⟩ ⟨_, rfl⟩)
  | read | verify => exact ite_next ⟨_, rfl⟩ (ite_next (ite_next ⟨_, rfl⟩ ⟨_, rfl⟩) ⟨_, rfl⟩)
  | _ => exact Bool.noConfusion hi

/-- A wire command whose frame encode builds goes on (R86). -/
theorem exec_wire_next {w : Instr} {f : Bytes} (hw : w.isWire = true) (hf : encodeFrame w = some f) (s : State) :
    ∃ t, exec w s = .next t := by
  rw [exec_wire hw, hf]
  exact sendFrame_next f _ s

/-- No instruction's meaning is a refusal: a request goes on, a wire command goes on or faults. -/
theorem exec_ne_refused (i : Instr) (s : State) (r : Refusal) : exec i s ≠ .refused r := by
  cases hw : i.isWire with
  | false =>
    obtain ⟨t, ht⟩ := exec_request_next hw s
    simp [ht]
  | true =>
    cases hf : encodeFrame i with
    | none => simp [exec_no_frame s hw hf]
    | some f =>
      obtain ⟨t, ht⟩ := exec_wire_next hw hf s
      simp [ht]

theorem frameStep_ne_refused (i : Instr) (s : State) (r : Refusal) : frameStep i s ≠ .refused r := by
  unfold frameStep
  split
  next => simp
  next w _ =>
    split
    next => simp
    next => simp
    next e he => exact absurd he (exec_ne_refused w s e)

/-- The one refusal of a step is that of its configuration. -/
theorem step_refused_iff (s : State) : step s = .refused .illFormedConfig ↔ s.cfg.wf = false := by
  refine ⟨fun h => ?_, fun h => by simp [step, h]⟩
  by_contra hc
  simp only [step, Bool.eq_true_of_not_eq_false hc, if_true] at h
  split at h
  next => cases h
  next =>
    unfold execStep at h
    split at h
    next => cases h
    next i _ =>
      split at h
      next => exact exec_ne_refused i s _ h
      next => exact frameStep_ne_refused i s _ h

/-- Settles O50: a step is refused exactly when a check of the configuration fails, and each check fails exactly in its clause. -/
theorem illFormedConfigurationRefused : Obligations.IllFormedConfigurationRefused := by
  intro s
  simp only [step_refused_iff, Config.wf_eq_false_iff, GeomEntry.wf_eq_false_iff, distinctKeys_eq_false_iff,
    GeomEntry.SameKey]

/-! ### What resolve answers (R102, R103) -/

theorem resolve_of_mem {table : List GeomEntry} (hk : distinctKeys table = true) {e : GeomEntry} (he : e ∈ table) :
    resolve table e.mfr e.type = (e.desc, false) := by
  unfold resolve
  split
  next f hf =>
    have hkey : f.SameKey e := by simpa [GeomEntry.SameKey] using List.find?_some hf
    rw [eq_of_sameKey hk (List.mem_of_find?_eq_some hf) he hkey]
  next hn => exact absurd (List.find?_eq_none.mp hn e he) (by simp)

theorem resolve_of_forall_ne {table : List GeomEntry} {m ty : Byte} (h : ∀ e ∈ table, ¬ (e.mfr = m ∧ e.type = ty)) :
    resolve table m ty = (unknownDescriptor, true) := by
  have hn : table.find? (fun e => decide (e.mfr = m) && decide (e.type = ty)) = none := by
    simpa [List.find?_eq_none] using h
  simp only [resolve, hn]

/-- Settles O26: a table with distinct keys answers with the entry of the key, any table without one with UNKNOWN_DESC. -/
theorem resolveFollowsTable : Obligations.ResolveFollowsTable := by
  intro table m ty hk
  refine ⟨fun e he hm hty => ?_, resolve_of_forall_ne⟩
  subst hm hty
  exact resolve_of_mem hk he

/-! ### IDENTIFY (R99, R105) -/

theorem exec_identify {s : State} (hg : s.geom.valid = false) : exec .identify s = .next (s.goto .sendRdid .single) := by
  simp [exec, execIdentify, hg]

/-- A step at a frame line whose answer has come: the request's lines run on the answer received. -/
theorem Latched.step_received {s : State} {i w : Instr} {f r : Bytes} {rest : List Answer} (h : Latched i s)
    (hl : s.pos.line ≠ .entry) (hw : lineInstr i s = some w) (hf : encodeFrame w = some f)
    (ha : s.answers = .bytes r :: rest) (hr : r.length = f.length) :
    step s = .next (advance i (s.received w f r rest)) := by
  rw [step_answered h.config h.executing h.request hl hw hf ha hr, State.received_eq]

/-- The identification of a full answer: bytes 1, 2, 3, and the unique id behind them (R99). -/
theorem parseIdent_answer (x m ty c : Byte) (uid : Bytes) :
    parseIdent uid.length (codecDecode (x :: m :: ty :: c :: uid) 1) = { mfr := m, type := ty, cap := c, uid := uid } := by
  simp [parseIdent, codecDecode, slice, Nat.add_comm 3]

/-- A legal length is the value its 32-bit register gives (R27, R28). -/
theorem toNat_ofNat_of_legalUnitLen {n : Nat} (h : legalUnitLen n = true) : (BitVec.ofNat 32 n).toNat = n := by
  simp only [legalUnitLen, Bool.and_eq_true, decide_eq_true_eq] at h
  exact (BitVec.toNat_ofNat ..).trans (Nat.mod_eq_of_lt h.1.2)

/-- The lengths of a legal entry's chip are the entry's; an absent subsector leaves its length unwritten (R105). -/
theorem geomOf_entry {e : GeomEntry} (h : e.wf = true) (old : GeomRegs) :
    (geomOf e.desc old).sectorLen.toNat = e.desc.sectorLen ∧
    (e.desc.subsectorLen = none → (geomOf e.desc old).subValid = false ∧ (geomOf e.desc old).subLen = old.subLen) ∧
    (∀ n, e.desc.subsectorLen = some n → (geomOf e.desc old).subValid = true ∧ (geomOf e.desc old).subLen.toNat = n) := by
  obtain ⟨-, hs, hsub⟩ := e.wf_iff.mp h
  refine ⟨toNat_ofNat_of_legalUnitLen hs, fun hn => by simp [geomOf, hn], fun n hn => ?_⟩
  simpa [geomOf, hn] using toNat_ofNat_of_legalUnitLen (hsub n hn)

/-- `s` with the registers of the chip that has the identification `d` (R105). -/
def State.resolvedAs (s : State) (d : IdRegs) : State :=
  s.setIdent d (geomOf (resolve s.cfg.geomTable d.mfr d.type).1 s.geom) (resolve s.cfg.geomTable d.mfr d.type).2

theorem State.resolvedAs_of_mem {s : State} {d : IdRegs} {e : GeomEntry} (hk : distinctKeys s.cfg.geomTable = true)
    (he : e ∈ s.cfg.geomTable) (hm : e.mfr = d.mfr) (hty : e.type = d.type) :
    s.resolvedAs d = s.setIdent d (geomOf e.desc s.geom) false := by
  rw [State.resolvedAs, ← hm, ← hty, resolve_of_mem hk he]

theorem State.resolvedAs_of_forall_ne {s : State} {d : IdRegs}
    (h : ∀ e ∈ s.cfg.geomTable, ¬ (e.mfr = d.mfr ∧ e.type = d.type)) :
    s.resolvedAs d = s.setIdent d (geomOf unknownDescriptor s.geom) true := by
  rw [State.resolvedAs, resolve_of_forall_ne h]

/-- IDENTIFY's lines on a full answer: the chip is resolved, and the response lists its registers. -/
theorem finishIdentify_answer {s : State} {x m ty c : Byte} {uid : Bytes} (hr : s.work.resp = x :: m :: ty :: c :: uid)
    (hu : uid.length = s.cfg.uidLen) :
    finishIdentify s = respond (identifyFields (s.resolvedAs ⟨m, ty, c, uid⟩)) (s.resolvedAs ⟨m, ty, c, uid⟩) := by
  have hid : parseIdent s.cfg.uidLen (codecDecode s.work.resp 1) = ⟨m, ty, c, uid⟩ := by rw [hr, ← hu, parseIdent_answer]
  have hs : s.identified = s.resolvedAs ⟨m, ty, c, uid⟩ := congrArg s.resolvedAs hid
  rw [finishIdentify_eq, hs]

/-- Settles O25: one step to the frame line, one over the answered frame; the registers are those of the resolved descriptor. -/
theorem identifyCompletes : Obligations.IdentifyCompletes := by
  intro s x m ty c uid rest h hg hu ha
  have h0 : Latched .identify (s.goto .sendRdid .single) := ⟨h.config, h.executing, h.request⟩
  have hlen : (x :: m :: ty :: c :: uid).length = (opRDID :: fill (3 + s.cfg.uidLen)).length := by
    simp [hu]; omega
  have hstep := h0.step_received Line.noConfusion rfl rfl ha hlen
  obtain ⟨-, hentries, hkeys⟩ := (Config.wf_iff s.cfg).mp h.config
  refine ⟨_, _, exec_identify hg, run_succ 0 (hstep.trans (congrArg _ (finishIdentify_answer rfl hu))), rfl,
    fun e he hm hty => ?_, fun hnone => ?_⟩
  · obtain ⟨hsector, habsent, hpresent⟩ := geomOf_entry (hentries e he) s.geom
    rw [State.resolvedAs_of_mem (e := e)]
    exacts [⟨rfl, rfl, hsector, rfl, rfl, habsent, hpresent⟩, hkeys, he, hm, hty]
  · rw [State.resolvedAs_of_forall_ne]
    exacts [⟨rfl, rfl⟩, hnone]

/-! ### The geometry after it (R106) -/

/-- RDID is sent before the geometry is resolved only (R106, R162). -/
theorem Inv.unresolved_of_sendRdid {s : State} (h : Inv s) (hx : s.seqState = .exec) (hl : s.pos.line = .sendRdid) :
    s.geom.valid = false := by
  have hp := h.position hx
  cases hd : decodeRequest s.req with
  | error e =>
    obtain ⟨he, -⟩ := (positionOk_reserved hd).mp hp
    exact Line.noConfusion (hl.symm.trans he)
  | ok i => exact ((positionOk_sendRdid hd hl).mp hp).2

/-- Settles O39: the writer of these registers is the step at the line of RDID, which stands only before they are resolved. -/
theorem geometryImmutable : Obligations.GeometryImmutable := by
  intro s t hi hg h
  obtain ⟨-, -, -, -, hwriter, -⟩ := registersWrittenByTheirWriters s t h
  have hkept : ¬ (t.ident ≠ s.ident ∨ t.geom ≠ s.geom ∨ t.warn ≠ s.warn) := fun hn => by
    obtain ⟨hx, hl⟩ := hwriter hn
    exact Bool.noConfusion (hg.symm.trans (hi.unresolved_of_sendRdid hx hl))
  simpa only [not_or, not_not] using hkept

end Sys2Proof.Machine

/-! ## spec/42_write_completion.md: the busy bit; what a frame does to WSTATE; commands to an idle chip; polls, idle and busy -/

namespace Sys2Proof.Machine

/-! ### The busy bit (R107) -/

/-- Settles O37: by the two values of the method's bit. -/
theorem checkBusyPolarity : Obligations.CheckBusyPolarity := by
  intro b
  refine ⟨rfl, ?_⟩
  simp only [checkBusy]
  cases b.getLsbD 7 <;> rfl

/-- A poll reports idle or busy, never UNKNOWN. -/
theorem checkBusy_eq_ite (m : BusyMethod) (b : Byte) :
    checkBusy m b = if checkBusy m b = .idle then .idle else .busy := by
  unfold checkBusy
  split <;> split <;> rfl

/-! ### The frame of a step that sends one -/

/-- A step in which TRACE grows by an event has sent the frame at the position: the transfer failed, or the request's lines went
on with the answer. -/
theorem StepRun.sent {s t : State} {e : Event} (h : StepRun s t) (ht : t.trace = s.trace ++ [e]) :
    ∃ i w, AtFrame i w e.frame s ∧
      ((e.answered = false ∧ t.wstate = .unknown) ∨
        ∃ r rest, e = ⟨e.frame, .bytes r⟩ ∧ r.length = e.frame.length ∧
          AdvanceRun i (s.received w e.frame r rest) t) := by
  cases h with
  | waits | accepts | unanswered => simp at ht
  | reserved => simp [errorEntry_eq] at ht
  | entry _ _ _ he => simp [he.frame.trace] at ht
  | failed hat _ hn =>
    obtain rfl : _ = e := by simpa [errorEntry_eq] using ht
    exact ⟨_, _, hat, .inl ⟨answered_eq_false hn, rfl⟩⟩
  | answered hat _ hr ha =>
    obtain rfl : _ = e := by simpa [ha.frame.trace] using ht
    exact ⟨_, _, hat, .inr ⟨_, _, rfl, hr, ha⟩⟩

/-- A step in which TRACE does not grow leaves WSTATE. -/
theorem StepRun.wstate_of_trace {s t : State} (h : StepRun s t) (ht : t.trace = s.trace) : t.wstate = s.wstate := by
  cases h with
  | waits | accepts | unanswered => rfl
  | reserved => simp [errorEntry_eq]
  | entry _ _ _ he => exact not_not.mp he.frame.wstate
  | failed => simp [errorEntry_eq] at ht
  | answered _ _ _ ha => simp [ha.frame.trace] at ht

/-! ### What a frame does to WSTATE (R108) -/

/-- The first byte of a destructive frame (R54, R72). -/
def destructiveHeads : List (Option Byte) := [some 0x02#8, some 0xD8#8, some 0x20#8, some 0xC7#8]

/-- R108's table: WSTATE after the event `e`, from `v` before it. -/
def Event.wstateAfter (e : Event) (v : WState) : WState :=
  if e.answered = false then .unknown
  else if e.frame ∈ [[0x05#8, 0x00#8], [0x70#8, 0x00#8]] then (if e.reportsIdle = true then .idle else .busy)
  else if e.frame.head? ∈ destructiveHeads then .unknown
  else v

theorem wstateAfter_failed {e : Event} (v : WState) (h : e.answered = false) : e.wstateAfter v = .unknown := if_pos h

theorem wstateAfter_poll (m : BusyMethod) (x b : Byte) (v : WState) :
    Event.wstateAfter ⟨pollFrame m, .bytes [x, b]⟩ v = checkBusy m b := by
  have hf : pollFrame m ∈ [[0x05#8, 0x00#8], [0x70#8, 0x00#8]] := by cases m <;> decide
  have hl : (pollFrame m).length = 2 := by cases m <;> rfl
  rw [checkBusy_eq_ite]
  simp [Event.wstateAfter, Event.answered, hl, hf, reportsIdle_pollFrame]

/-- Any other answered frame is judged by its opcode. -/
theorem wstateAfter_of_head {f r : Bytes} (v : WState) (hr : r.length = f.length)
    (h5 : f.head? ≠ some 0x05#8) (h7 : f.head? ≠ some 0x70#8) :
    Event.wstateAfter ⟨f, .bytes r⟩ v = if f.head? ∈ destructiveHeads then .unknown else v := by
  have hf : f ∉ [[0x05#8, 0x00#8], [0x70#8, 0x00#8]] := by
    intro hf
    simp only [List.mem_cons, List.not_mem_nil, or_false] at hf
    obtain rfl | rfl := hf
    · exact h5 rfl
    · exact h7 rfl
  simp only [Event.wstateAfter, Event.answered, hr, decide_true, Bool.true_eq_false, if_false, if_neg hf]

theorem head_of_isDestructive {w : Instr} {f : Bytes} (hf : encodeFrame w = some f) (hd : w.isDestructive = true) :
    f.head? ∈ destructiveHeads := by
  cases w with
  | pp | se | sse => rw [codecEncode_eq_some hf]; simp [destructiveHeads, opPP, opSE, opSSE]
  | be => cases hf; decide
  | _ => exact Bool.noConfusion hd

/-- Away from the lines that poll, the frame's opcode is no status opcode, and it is a destructive one exactly when the command
is destructive. -/
theorem AtFrame.head {i w : Instr} {f : Bytes} {s : State} (h : AtFrame i w f s)
    (hl : s.pos.line ∉ [.pollOnce, .waitIdle]) :
    f.head? ≠ some 0x05#8 ∧ f.head? ≠ some 0x70#8 ∧
      (f.head? ∈ destructiveHeads ↔ w.isDestructive = true) := by
  have hf := h.frame
  obtain ⟨-, -, rfl⟩ | ⟨hp, -⟩ | ⟨hp, -⟩ | ⟨-, -, rfl⟩ | ⟨-, hw⟩ | ⟨-, -, rfl⟩ := lineInstr_cases h.instr
  · cases hf; simp [destructiveHeads, opRDID, Instr.isDestructive]
  · simp [hp] at hl
  · simp [hp] at hl
  · cases hf; simp [destructiveHeads, opWREN, Instr.isDestructive]
  · have hd := destructiveInstr_isDestructive hw
    have hh := head_of_isDestructive hf hd
    refine ⟨fun h5 => ?_, fun h7 => ?_, iff_of_true hh hd⟩
    · simp [destructiveHeads, h5] at hh
    · simp [destructiveHeads, h7] at hh
  · rw [codecEncode_eq_some hf]; simp [destructiveHeads, opREAD, chunkInstr, Instr.isDestructive]

/-- The lines after a poll keep the state it reported (R109). -/
theorem AdvanceRun.wstate_polled {i : Instr} {s t : State} (h : AdvanceRun i s t)
    (hp : s.pos.line ∈ [.pollOnce, .waitIdle]) : t.wstate = (afterPoll s).wstate := by
  cases h with
  | polled | pollsAgain | idleResponds | idleWrites | idleReads => rfl
  | identified hl | writeEnabled hl | written hl | nextErase hl | erased hl | nextPage hl | nextChunk hl | lastChunk hl =>
    simp [hl] at hp

/-- WSTATE after an answered frame and the lines behind it. -/
theorem AtFrame.wstate_answered {i w : Instr} {f r : Bytes} {rest : List Answer} {s t : State} (h : AtFrame i w f s)
    (hr : r.length = f.length) (ha : AdvanceRun i (s.received w f r rest) t) :
    t.wstate = Event.wstateAfter ⟨f, .bytes r⟩ s.wstate := by
  by_cases hp : s.pos.line ∈ [.pollOnce, .waitIdle]
  · obtain rfl : w = pollInstr s.geom := eq_pollInstr_of_line h.instr (by simpa using hp)
    obtain rfl : pollFrame s.geom.busy = f := Option.some.inj ((encodeFrame_pollInstr s.geom).symm.trans h.frame)
    have h2 : r.length = 2 := hr.trans (by cases s.geom.busy <;> rfl)
    obtain ⟨x, b, rfl⟩ := List.length_eq_two.mp h2
    rw [wstateAfter_poll, ha.wstate_polled hp]
    rfl
  · obtain ⟨h5, h7, hd⟩ := h.head hp
    have ht : t.wstate = (s.received w f r rest).wstate := by
      by_contra hn
      exact hp (ha.frame.wstate hn)
    rw [ht, State.received_wstate, wstateAfter_of_head s.wstate hr h5 h7]
    simp only [hd]

/-- Settles O38: over the ways a step that sends a frame can go. -/
theorem writeStateTransitions : Obligations.WriteStateTransitions := by
  refine ⟨fun s t h => ⟨(step_run h).wstate_of_trace, fun e he => ?_⟩, fun s t h => ?_⟩
  · change t.wstate = e.wstateAfter s.wstate
    obtain ⟨i, w, hat, ⟨hn, ht⟩ | ⟨r, rest, hev, hr, ha⟩⟩ := (step_run h).sent he
    · rw [ht, wstateAfter_failed s.wstate hn]
    · rw [hev]
      exact hat.wstate_answered hr ha
  · rw [resetEvent_next h]
    rfl

/-! ### Which commands need an idle chip (R115, R162, R165) -/

/-- At the lines of WREN, of the destructive frame and of a chunk the chip is idle. -/
theorem Inv.idle_of_line {s : State} {i : Instr} (hi : Inv s) (hx : s.seqState = .exec) (hd : decodeRequest s.req = .ok i)
    (hl : s.pos.line ∈ [.sendWren, .destructive, .sendRead]) : s.wstate = .idle := by
  have hp := hi.position hx
  simp only [List.mem_cons, List.not_mem_nil, or_false] at hl
  obtain hl | hl | hl := hl
  · obtain ⟨-, -, -, hw, -⟩ := (positionOk_sendWren hd hl).mp hp
    exact hw
  · obtain ⟨-, -, -, hw, -⟩ := (positionOk_destructive hd hl).mp hp
    exact hw
  · obtain ⟨-, -, -, hw⟩ := (positionOk_sendRead hd hl).mp hp
    exact hw

/-- The command at a line: WREN, a destructive one and READ_DATA stand at three lines, RDID at its own. -/
theorem line_of_command {i w : Instr} {s : State} (h : lineInstr i s = some w) :
    (w = .wren ∨ w.isDestructive = true ∨ (∃ a n, w = .readData a n) →
      s.pos.line ∈ [.sendWren, .destructive, .sendRead]) ∧
    ((∃ n, w = .rdid n) → s.pos.line = .sendRdid) := by
  obtain ⟨hl, -, rfl⟩ | ⟨-, -, rfl⟩ | ⟨-, -, rfl⟩ | ⟨hl, -, rfl⟩ | ⟨hl, hw⟩ | ⟨hl, -, rfl⟩ := lineInstr_cases h
  · simp [hl, Instr.isDestructive]
  · cases hb : s.geom.busy <;> simp [pollInstr, hb, Instr.isDestructive]
  · cases hb : s.geom.busy <;> simp [pollInstr, hb, Instr.isDestructive]
  · simp [hl]
  · refine ⟨fun _ => by simp [hl], ?_⟩
    rintro ⟨n, rfl⟩
    exact Bool.noConfusion (destructiveInstr_isDestructive hw)
  · simp [hl, chunkInstr]

/-- Settles O47: the frame sent is that of the command at the position, and the invariant says what holds at its line. -/
theorem commandsOnlyToAnIdleChip : Obligations.CommandsOnlyToAnIdleChip := by
  intro s t e w hi h he hw
  obtain ⟨i, w', hat, -⟩ := (step_run h).sent he
  obtain rfl : w' = w := Except.ok.inj ((hat.decodes hi).symm.trans hw)
  obtain ⟨hidle, hrdid⟩ := line_of_command hat.instr
  exact ⟨fun hc => hi.idle_of_line hat.executing hat.request (hidle hc),
    fun hn => hi.unresolved_of_sendRdid hat.executing (hrdid hn)⟩

/-! ### Polls (R109 to R112, R116) -/

/-- What an answered poll leaves, before the lines behind it: the register byte in LAST_POLL, its state in WSTATE (R109). -/
def State.polled (s : State) (x b : Byte) (rest : List Answer) : State :=
  { s with
    work := { s.work with resp := [x, b], b := b }
    wstate := checkBusy s.geom.busy b
    poll := { value := b, valid := true }
    cs := false
    trace := s.trace ++ [{ frame := pollFrame s.geom.busy, answer := .bytes [x, b] }]
    answers := rest }

theorem afterPoll_received (s : State) (x b : Byte) (rest : List Answer) :
    afterPoll (s.received (pollInstr s.geom) (pollFrame s.geom.busy) [x, b] rest) = s.polled x b rest := by
  simp [State.polled, State.received, afterPoll, State.setPoll, codecDecode, pollInstr_isDestructive]

/-- What WaitIdle leaves when it returns: the last poll reported idle (R110). -/
def State.waited (s : State) (w : WaitScript) (rest : List Answer) : State :=
  { s with
    work := { s.work with resp := [w.idleSkip, w.idleByte], b := w.idleByte }
    wstate := .idle
    poll := { value := w.idleByte, valid := true }
    cs := false
    trace := s.trace ++ w.events s.geom.busy
    answers := rest }

theorem WaitScript.fits_iff (w : WaitScript) (m : BusyMethod) :
    w.fits m = true ↔ (∀ p ∈ w.busy, checkBusy m p.2 = .busy) ∧ checkBusy m w.idleByte = .idle := by
  simp [WaitScript.fits]

section Polls
variable {i : Instr} {s : State} (h : Latched i s)
include h

/-- A poll leaves the request in execution. -/
theorem Latched.polled (x b : Byte) (rest : List Answer) : Latched i (s.polled x b rest) :=
  ⟨h.config, h.executing, h.request⟩

/-- A step at a line that polls, its status frame answered. -/
theorem Latched.step_poll {x b : Byte} {rest : List Answer} (hl : s.pos.line ∈ [.pollOnce, .waitIdle])
    (hw : lineInstr i s = some (pollInstr s.geom)) (ha : s.answers = .bytes [x, b] :: rest) :
    step s = .next (advance i (s.received (pollInstr s.geom) (pollFrame s.geom.busy) [x, b] rest)) := by
  refine h.step_received ?_ hw (encodeFrame_pollInstr s.geom) ha (by cases s.geom.busy <;> rfl)
  intro he
  simp [he] at hl

/-- One pass of WaitIdle's loop: on to what follows it when the poll reports idle, else the same line again (R110). -/
theorem Latched.step_waitIdle {x b : Byte} {rest : List Answer} (hl : s.pos.line = .waitIdle)
    (hr : (waitRole i).isSome = true) (ha : s.answers = .bytes [x, b] :: rest) :
    step s = .next
      (if checkBusy s.geom.busy b = .idle then afterIdle i (s.polled x b rest) else s.polled x b rest) := by
  rw [h.step_poll (by simp [hl]) (by simp [lineInstr, hl, hr]) ha]
  simp only [advance, State.received_pos, hl, afterWaitPoll, afterPoll_received]
  rfl

/-- While every poll reports busy WaitIdle polls on: besides LAST_POLL, WSTATE and the polled bytes only the bus has moved. -/
theorem Latched.run_busy {ps : List (Byte × Byte)} {rest : List Answer} (hl : s.pos.line = .waitIdle)
    (hr : (waitRole i).isSome = true) (hb : ∀ p ∈ ps, checkBusy s.geom.busy p.2 = .busy)
    (ha : s.answers = ps.map (fun p => Answer.bytes [p.1, p.2]) ++ rest) :
    ∃ t : State, Host.Core.run Sys2Proof.core ps.length s = .next t ∧
      t =
        { s with
          work := { s.work with resp := t.work.resp, b := t.work.b }
          wstate := t.wstate
          poll := t.poll
          cs := t.cs
          trace := s.trace ++ ps.map (fun p => { frame := pollFrame s.geom.busy, answer := .bytes [p.1, p.2] })
          answers := rest } ∧
      (ps ≠ [] → t.wstate = .busy) := by
  induction ps generalizing s with
  | nil =>
    obtain rfl : s.answers = rest := ha
    exact ⟨s, rfl, by simp, fun hn => absurd rfl hn⟩
  | cons p ps ih =>
    obtain ⟨hp, hps⟩ := List.forall_mem_cons.mp hb
    have hstep := h.step_waitIdle hl hr ha
    rw [if_neg (by rw [hp]; exact WState.noConfusion)] at hstep
    obtain ⟨t, ht, he, hw⟩ := ih (h.polled p.1 p.2 _) hl hps rfl
    refine ⟨t, (run_succ _ hstep).trans ht, he.trans (by simp [State.polled]), fun _ => ?_⟩
    by_cases hn : ps = []
    · subst hn
      cases ht
      exact hp
    · exact hw hn

/-- WaitIdle over a script that fits: the busy polls, the idle one, and on to what follows it. -/
theorem Latched.run_waitIdle {w : WaitScript} {rest : List Answer} (hl : s.pos.line = .waitIdle)
    (hr : (waitRole i).isSome = true) (hf : w.fits s.geom.busy = true) (ha : s.answers = w.answers ++ rest) :
    Host.Core.run Sys2Proof.core (w.busy.length + 1) s = .next (afterIdle i (s.waited w rest)) := by
  obtain ⟨hbusy, hidle⟩ := (w.fits_iff s.geom.busy).mp hf
  obtain ⟨t, hrun, he, -⟩ := h.run_busy hl hr hbusy (ha.trans (List.append_assoc ..))
  have ht : Latched i t ∧ t.pos = s.pos ∧ t.geom = s.geom ∧ t.answers = .bytes [w.idleSkip, w.idleByte] :: rest := by
    rw [he]
    exact ⟨⟨h.config, h.executing, h.request⟩, rfl, rfl, rfl⟩
  obtain ⟨hlat, hpos, hgeom, hans⟩ := ht
  have hstep := hlat.step_waitIdle (hpos ▸ hl) hr hans
  rw [if_pos (by rw [hgeom]; exact hidle)] at hstep
  have hlast : t.polled w.idleSkip w.idleByte rest = s.waited w rest := by
    rw [he]
    simp [State.polled, State.waited, WaitScript.events, WaitScript.answers, hidle]
  rw [run_add, hrun, ← hlast]
  exact run_succ 0 hstep

end Polls

/-- Settles O48: the state after the busy polls, field by field. -/
theorem busyChipHangsRequest : Obligations.BusyChipHangsRequest := by
  intro s i ps rest h hl hr hb ha
  obtain ⟨t, hrun, he, hw⟩ := h.run_busy hl hr hb ha
  refine ⟨t, hrun, ?_⟩
  rw [he]
  exact ⟨h.executing, rfl, rfl, rfl, rfl, by simp, hw⟩

theorem exec_poll {s : State} (hg : s.geom.valid = true) : exec .poll s = .next (s.goto .pollOnce .single) := by
  simp [exec, execPoll, hg]

theorem exec_waitIdle {s : State} (hg : s.geom.valid = true) : exec .waitIdle s = .next (s.goto .waitIdle .single) := by
  simp [exec, execWaitIdle, hg]

/-- Moving to another line leaves the latched request in execution. -/
theorem Latched.goto {i : Instr} {s : State} (h : Latched i s) (l : Line) (p : Phase) : Latched i (s.goto l p) :=
  ⟨h.config, h.executing, h.request⟩

/-- POLL's lines respond with what the poll left (R111). -/
theorem finishPoll_received (s : State) (x b : Byte) (rest : List Answer) :
    finishPoll (s.received (pollInstr s.geom) (pollFrame s.geom.busy) [x, b] rest) =
      respond (.poll (checkBusy s.geom.busy b) b) (s.polled x b rest) := by
  rw [finishPoll, afterPoll_received]
  rfl

/-- Settles O27: one step to the frame line, one over the answered status frame. -/
theorem pollCompletes : Obligations.PollCompletes := by
  intro s x b rest h hg ha
  have hstep := (h.goto .pollOnce .single).step_poll (by simp) rfl ha
  exact ⟨_, _, exec_poll hg, run_succ 0 (hstep.trans (congrArg _ (finishPoll_received _ x b rest))), rfl⟩

/-- Settles O28: one step to the wait's line, then the wait, and the response with LAST_POLL. -/
theorem waitIdleCompletes : Obligations.WaitIdleCompletes := by
  intro s w rest h hg hf ha
  exact ⟨_, _, exec_waitIdle hg, (h.goto .waitIdle .single).run_waitIdle rfl rfl hf ha, rfl⟩

end Sys2Proof.Machine

/-! ## spec/43_erase_program.md: pages and sectors of an image; write steps; erase and program requests; WREN before each of them -/

namespace Sys2Proof.Machine

/-! ### Pages and sectors of an image (R122 to R127) -/

/-- ceil_div counts the blocks that begin inside the length. -/
theorem lt_ceilDiv_iff {l b k : Nat} (hb : 0 < b) : k < ceilDiv l b ↔ k * b < l := by
  refine ⟨mul_lt_of_lt_ceilDiv hb, fun h => (Nat.le_div_iff_mul_le hb).mpr ?_⟩
  rw [Nat.succ_mul]
  omega

theorem le_ceilDiv_mul {b : Nat} (hb : 0 < b) (l : Nat) : l ≤ ceilDiv l b * b :=
  Nat.not_lt.mp fun h => Nat.lt_irrefl _ ((lt_ceilDiv_iff hb).mpr h)

/-- A page is what stands at its address, cut at PAGE_LEN bytes: the bound of R125 is no other cut. -/
theorem pageSlice_eq (d : Bytes) (a : Nat) : pageSlice d a = (d.drop a).take pageLen := by
  rw [pageSlice, slice, List.drop_take, List.take_eq_take_iff, List.length_drop]
  omega

theorem pageSlice_length (d : Bytes) (i : Nat) :
    (pageSlice d (pageAddr i)).length = min 256 (d.length - i * 256) := by
  rw [pageSlice_eq, List.length_take, List.length_drop, pageAddr]

/-- The first `n` pages, one after the other, are the first bytes of the image. -/
theorem flatMap_pageSlice (d : Bytes) (n : Nat) :
    (List.range n).flatMap (fun i => pageSlice d (pageAddr i)) = d.take (n * pageLen) := by
  induction n with
  | zero => simp
  | succ n ih =>
    rw [List.range_succ, List.flatMap_append, ih, List.flatMap_singleton, pageSlice_eq, Nat.succ_mul, List.take_add,
      pageAddr]

/-- Settles O56: the pages up to the count reach the end, and the page at index i is cut short by the end only. -/
theorem pagesCoverTheImage : Obligations.PagesCoverTheImage := by
  intro d
  refine ⟨?_, fun i hi => ⟨rfl, ?_, fun hnext => ?_, fun hlast => ?_⟩⟩
  · rw [flatMap_pageSlice]
    exact List.take_of_length_le (le_ceilDiv_mul (by decide) d.length)
  all_goals rw [pageSlice_length]
  · have hstart : i * 256 < d.length := mul_lt_of_lt_ceilDiv (by decide) hi
    omega
  · have hstart : (i + 1) * 256 < d.length := mul_lt_of_lt_ceilDiv (by decide) hnext
    omega
  · have hend : d.length ≤ pageCount d.length * 256 := le_ceilDiv_mul (by decide) d.length
    omega

/-- A byte lies in the block that its address divided by the length numbers, and in no other. -/
theorem inBlock_iff {b : Nat} (hb : 0 < b) (k i : Nat) : i * b ≤ k ∧ k < i * b + b ↔ i = k / b := by
  rw [eq_comm, Nat.div_eq_iff hb]
  omega

/-- Settles O57: the sector of byte k is number k / GEOM_SECTOR_LEN, which is one of the image's since it begins before k. -/
theorem erasedSectorsCoverTheImage : Obligations.ErasedSectorsCoverTheImage := by
  intro g l k hs hl hk
  have hpos : 0 < g.sectorLen.toNat := Nat.pos_of_ne_zero hs
  obtain ⟨hfrom, hto⟩ := (inBlock_iff hpos k _).mpr rfl
  refine ⟨⟨k / g.sectorLen.toNat, (lt_ceilDiv_iff hpos).mpr (by omega), hfrom, hto, fun j _ h1 h2 => ?_⟩, fun i hi => ?_⟩
  · exact (inBlock_iff hpos k j).mp ⟨h1, h2⟩
  · have hstart : eraseAddr g i < l := mul_lt_of_lt_ceilDiv hpos hi
    exact ⟨Nat.mul_mod_left .., by omega⟩

/-! ### WREN before every destructive frame, over every run (R117, R163, R164) -/

/-- The invariant holds of every state that a run of the three agents reaches. -/
theorem Reachable.inv {c : Config} {s : State} (hc : c.wf = true) (h : Reachable c s) : Inv s := by
  induction h with
  | reset => exact inv_resetWith hc
  | move _ m ih =>
    cases m with
    | block h => exact stepKeepsInvariant _ _ ih h
    | host r => exact ih.offer r
    | transport a => exact ih.supply a
    | reset h => exact ih.resetEvent h

/-- A beginning of an ordered TRACE is ordered. -/
theorem traceOrdered_of_append {tr es : List Event} (h : traceOrdered (tr ++ es) = true) : traceOrdered tr = true := by
  induction es using List.reverseRecOn with
  | nil => simpa using h
  | append_singleton es e ih =>
    rw [← List.append_assoc, traceOrdered_append, Bool.and_eq_true] at h
    exact ih h.1

/-- An ordered TRACE up to one of its events. -/
theorem traceOrdered_append_cons {older newer : List Event} {e : Event} (h : traceOrdered (older ++ e :: newer) = true) :
    traceOrdered older = true ∧ mayFollow older.getLast? e = true := by
  rw [List.append_cons] at h
  simpa only [traceOrdered_append, Bool.and_eq_true] using traceOrdered_of_append h

theorem exists_append_of_getLast?_any {tr : List Event} {p : Event → Bool} (h : tr.getLast?.any p = true) :
    ∃ old v, tr = old ++ [v] ∧ p v = true := by
  obtain ⟨v, hv, hp⟩ := (Option.any_eq_true ..).mp h
  obtain ⟨old, rfl⟩ := List.getLast?_eq_some_iff.mp hv
  exact ⟨old, v, rfl, hp⟩

theorem mayFollow_wren {e : Event} (b : Option Event) (h : e.frame = [opWREN]) :
    mayFollow b e = b.any Event.reportsIdle := by
  rw [mayFollow, h]
  rfl

/-- Settles O46: TRACE is ordered in every reachable state, so the event before the destructive frame is an answered WREN, and
the one before that a poll that reported idle. -/
theorem writeEnablePrecedesEveryDestructiveFrame : Obligations.WriteEnablePrecedesEveryDestructiveFrame := by
  intro c s older newer e w hc hr ht hw hd
  obtain ⟨holder, hfollows⟩ := traceOrdered_append_cons (ht ▸ (hr.inv hc).ordered)
  rw [mayFollow_destructive _ hw hd] at hfollows
  obtain ⟨mid, v, rfl, hv⟩ := exists_append_of_getLast?_any hfollows
  obtain ⟨hframe, hanswered⟩ : v.frame = [opWREN] ∧ v.answered = true := by simpa [Event.enablesWrite] using hv
  obtain ⟨-, hpoll⟩ := traceOrdered_append_cons holder
  rw [mayFollow_wren _ hframe] at hpoll
  obtain ⟨old, p, rfl, hp⟩ := exists_append_of_getLast?_any hpoll
  exact ⟨old, p, v, List.append_assoc .., hframe, hanswered, hp⟩

/-! ### One write step (R117) -/

/-- Two runs, one after the other. -/
theorem run_trans {m n : Nat} {s t u : State} (hm : Host.Core.run Sys2Proof.core m s = .next t)
    (hn : Host.Core.run Sys2Proof.core n t = .next u) : Host.Core.run Sys2Proof.core (m + n) s = .next u := by
  rw [run_add, hm]
  exact hn

/-- What a write step's wait and WREN leave, at the line of its destructive frame. -/
def State.writeEnabled (s : State) (w : WriteScript) (rest : List Answer) : State :=
  { s with
    pos := { line := .destructive, phase := s.pos.phase }
    work := { s.work with resp := [w.wren], b := w.wait.idleByte }
    wstate := .idle
    poll := { value := w.wait.idleByte, valid := true }
    cs := false
    trace := s.trace ++ w.wait.events s.geom.busy ++ [{ frame := [opWREN], answer := .bytes [w.wren] }]
    answers := .bytes w.ignored :: rest }

/-- What the whole step leaves, its destructive frame `f` answered, before the lines behind it (R113). -/
def State.written (s : State) (w : WriteScript) (f : Bytes) (rest : List Answer) : State :=
  { s with
    pos := { line := .destructive, phase := s.pos.phase }
    work := { s.work with resp := w.ignored, b := w.wait.idleByte }
    wstate := .unknown
    poll := { value := w.wait.idleByte, valid := true }
    cs := false
    trace := s.trace ++ w.events s.geom.busy f
    answers := rest }

theorem State.received_writeEnabled (s : State) (w : WriteScript) {d : Instr} (f : Bytes) (rest : List Answer)
    (hd : d.isDestructive = true) :
    (s.writeEnabled w rest).received d f w.ignored rest = s.written w f rest := by
  simp [State.received, State.writeEnabled, State.written, WriteScript.events, hd]

theorem WriteScript.fits_iff (w : WriteScript) (m : BusyMethod) (f : Bytes) :
    w.fits m f = true ↔ w.wait.fits m = true ∧ w.ignored.length = f.length := by
  simp [WriteScript.fits]

theorem WriteScript.steps_eq (w : WriteScript) : w.steps = (w.wait.busy.length + 1) + 1 + 1 := by
  simp [WriteScript.steps, WriteScript.answers, WaitScript.answers]

/-- The frame of a write step rests on the configuration, the phase and the flash address only. -/
theorem destructiveInstr_writeEnabled (i : Instr) (s : State) (w : WriteScript) (rest : List Answer) :
    destructiveInstr i (s.writeEnabled w rest) = destructiveInstr i s := rfl

/-- With the response right behind it a write step is all that has happened. -/
theorem writesDone_respond {s : State} {p : Phase} {k n a : Nat} {w : WriteScript} {f : Bytes} {rest : List Answer} :
    WritesDone s (respond .none ((startWriteStep p k n a s).written w f rest)) w.wait.idleByte
      (w.events s.geom.busy f) rest := rfl

/-- The state a write step leaves differs from the one it began in by what WritesDone leaves open or names. -/
theorem WritesDone.of_written {s t : State} {p : Phase} {k n a : Nat} {w : WriteScript} {f : Bytes} {as rest : List Answer}
    {b : Byte} {evs : List Event} (h : WritesDone ((startWriteStep p k n a s).written w f as) t b evs rest) :
    WritesDone s t b (w.events s.geom.busy f ++ evs) rest := by
  rw [WritesDone, ← List.append_assoc]
  exact h

section WriteStep
variable {i : Instr} {s : State} (h : Latched i s)
include h

theorem Latched.waited (w : WaitScript) (rest : List Answer) : Latched i (s.waited w rest) :=
  ⟨h.config, h.executing, h.request⟩

theorem Latched.writeEnabled (w : WriteScript) (rest : List Answer) : Latched i (s.writeEnabled w rest) :=
  ⟨h.config, h.executing, h.request⟩

theorem Latched.written (w : WriteScript) (f : Bytes) (rest : List Answer) : Latched i (s.written w f rest) :=
  ⟨h.config, h.executing, h.request⟩

theorem Latched.startWriteStep (p : Phase) (k n a : Nat) : Latched i (startWriteStep p k n a s) :=
  ⟨h.config, h.executing, h.request⟩

/-- The step over an answered WREN leads to the destructive frame. -/
theorem Latched.step_sendWren {r : Byte} {rest : List Answer} (hl : s.pos.line = .sendWren)
    (hr : waitRole i = some .write) (ha : s.answers = .bytes [r] :: rest) :
    step s = .next ((s.received .wren [opWREN] [r] rest).goto .destructive s.pos.phase) := by
  rw [h.step_received (w := .wren) (by simp [hl]) (by simp [lineInstr, hl, hr]) rfl ha rfl]
  simp [advance, hl]

/-- The step over an answered destructive frame. -/
theorem Latched.step_destructive {d : Instr} {f r : Bytes} {rest : List Answer} (hl : s.pos.line = .destructive)
    (hd : destructiveInstr i s = some d) (hf : encodeFrame d = some f) (ha : s.answers = .bytes r :: rest)
    (hlen : r.length = f.length) : step s = .next (afterDestructive i (s.received d f r rest)) := by
  rw [h.step_received (by simp [hl]) (by simpa [lineInstr, hl] using hd) hf ha hlen]
  simp [advance, hl]

/-- A write step's wait and WREN over a script that fits. -/
theorem Latched.run_writeEnabled {w : WriteScript} {rest : List Answer} (hl : s.pos.line = .waitIdle)
    (hr : waitRole i = some .write) (hfit : w.wait.fits s.geom.busy = true) (ha : s.answers = w.answers ++ rest) :
    Host.Core.run Sys2Proof.core ((w.wait.busy.length + 1) + 1) s = .next (s.writeEnabled w rest) := by
  have hwait := h.run_waitIdle hl (by rw [hr]; rfl) hfit (ha.trans (List.append_assoc ..))
  have hidle (t : State) : afterIdle i t = t.goto .sendWren t.pos.phase := by rw [afterIdle, hr]
  rw [run_add, hwait, hidle]
  exact run_succ 0 (((h.waited w.wait _).goto .sendWren s.pos.phase).step_sendWren rfl hr rfl)

/-- A write step over a script that fits: the polls up to idle, WREN, the destructive frame, and on to the lines behind it. -/
theorem Latched.run_writeStep {d : Instr} {f : Bytes} {w : WriteScript} {rest : List Answer}
    (hl : s.pos.line = .waitIdle) (hr : waitRole i = some .write) (hd : destructiveInstr i s = some d)
    (hf : encodeFrame d = some f) (hfit : w.fits s.geom.busy f = true) (ha : s.answers = w.answers ++ rest) :
    Host.Core.run Sys2Proof.core w.steps s = .next (afterDestructive i (s.written w f rest)) := by
  obtain ⟨hwait, hlen⟩ := (w.fits_iff s.geom.busy f).mp hfit
  have hd' := (destructiveInstr_writeEnabled i s w rest).trans hd
  have hstep := (h.writeEnabled w rest).step_destructive rfl hd' hf rfl hlen
  rw [State.received_writeEnabled s w f rest (destructiveInstr_isDestructive hd)] at hstep
  rw [w.steps_eq]
  exact run_trans (h.run_writeEnabled hl hr hwait ha) (run_succ 0 hstep)

/-- A request of a single write step, once its checks have passed. -/
theorem Latched.single_writesDone {d : Instr} {a : Nat} {f : Bytes} {w : WriteScript} {rest : List Answer}
    (hr : waitRole i = some .write) (hx : exec i s = .next (Machine.startWriteStep .single 0 1 a s))
    (hd : destructiveInstr i (Machine.startWriteStep .single 0 1 a s) = some d) (hf : encodeFrame d = some f)
    (hfit : w.fits s.geom.busy f = true) (ha : s.answers = w.answers ++ rest) :
    ∃ t0 t, exec i s = .next t0 ∧ Host.Core.run Sys2Proof.core w.steps t0 = .next t ∧
      WritesDone s t w.wait.idleByte (w.events s.geom.busy f) rest :=
  ⟨_, _, hx, (h.startWriteStep .single 0 1 a).run_writeStep rfl hr hd hf hfit ha, writesDone_respond⟩

end WriteStep

/-! ### Erase requests and PAGE_PROGRAM (R118 to R121) -/

/-- A request whose checks pass goes on. -/
theorem checked_of_pass {s : State} {g ok : Bool} (o : Host.Outcome State Fault Refusal) (hg : g = true) (ho : ok = true) :
    (if g = false then raise .notResolved s else if ok then o else raise .invalidArgument s) = o := by
  rw [hg, ho]
  rfl

/-- Settles O29: the one write step of an SE frame. -/
theorem eraseSectorCompletes : Obligations.EraseSectorCompletes := by
  intro s a w rest h hg h24 hal hfit ha
  exact h.single_writesDone rfl (checked_of_pass _ hg ((eraseSectorOk_iff a s.geom).mpr ⟨h24, hal⟩)) rfl
    (codecEncode_some opSE [] h24) hfit ha

/-- Settles O30: the one write step of an SSE frame. -/
theorem eraseSubsectorCompletes : Obligations.EraseSubsectorCompletes := by
  intro s a w rest h hg hv h24 hal hfit ha
  exact h.single_writesDone rfl (checked_of_pass _ hg ((eraseSubsectorOk_iff a s.geom).mpr ⟨hv, h24, hal⟩)) rfl
    (codecEncode_some opSSE [] h24) hfit ha

/-- Settles O31: the one write step of a BE frame. -/
theorem eraseBulkCompletes : Obligations.EraseBulkCompletes := by
  intro s w rest h hg hfit ha
  have hx : exec .eraseBulk s = .next (startWriteStep .single 0 1 0 s) := by simp [exec, execEraseBulk, hg]
  exact h.single_writesDone rfl hx rfl rfl hfit ha

theorem pageProgramOk_of_inside {a : BitVec 32} {d : Bytes} (hd : 1 ≤ d.length) (ha : a.toNat < addrLimit)
    (hin : a.toNat % pageLen + d.length ≤ pageLen) : pageProgramOk a d = true := by
  simp only [pageProgramOk, Bool.and_eq_true, decide_eq_true_eq]
  omega

/-- Settles O32: the one write step of a PP frame, the payload inside one page. -/
theorem pageProgramCompletes : Obligations.PageProgramCompletes := by
  intro s a d w rest h hg hd h24 hin hfit ha
  exact h.single_writesDone rfl (checked_of_pass _ hg (pageProgramOk_of_inside hd h24 hin)) rfl
    (codecEncode_some opPP d h24) hfit ha

/-! ### PROGRAM: its write steps, numbered (R122 to R128) -/

/-- The frame of erase step `k` (R123, R124). -/
def eraseFrame (c : Config) (g : GeomRegs) (k : Nat) : Bytes :=
  match c.eraseStrategy with
  | .sector => opSE :: le24 (eraseAddr g k)
  | .bulk => [opBE]

/-- The frame of page `k` (R125). -/
def pageFrame (d : Bytes) (k : Nat) : Bytes := opPP :: (le24 (pageAddr k) ++ pageSlice d (pageAddr k))

theorem eraseFrames_eq (c : Config) (g : GeomRegs) (l : Nat) :
    eraseFrames c g l = (List.range (eraseSteps c l g)).map (eraseFrame c g) := by
  unfold eraseFrames eraseSteps eraseFrame
  cases c.eraseStrategy with
  | sector => rfl
  | bulk =>
    cases hn : sectorCount l g with
    | zero => rfl
    | succ n => simp

theorem programFrames_eq (d : Bytes) : programFrames d = (List.range (pageCount d.length)).map (pageFrame d) := rfl

theorem imageFrames_length (c : Config) (g : GeomRegs) (d : Bytes) :
    (imageFrames c g d).length = eraseSteps c d.length g + pageCount d.length := by
  simp [imageFrames, eraseFrames_eq, programFrames_eq]

theorem imageFrames_erase {c : Config} {g : GeomRegs} {d : Bytes} {k : Nat} (hk : k < eraseSteps c d.length g) :
    (imageFrames c g d)[k]? = some (eraseFrame c g k) := by
  rw [imageFrames, List.getElem?_append_left (by simpa [eraseFrames_eq] using hk), eraseFrames_eq]
  simp [hk]

theorem imageFrames_page {c : Config} {g : GeomRegs} {d : Bytes} {j : Nat} (hj : j < pageCount d.length) :
    (imageFrames c g d)[eraseSteps c d.length g + j]? = some (pageFrame d j) := by
  rw [imageFrames, List.getElem?_append_right (by simp [eraseFrames_eq]), eraseFrames_eq, programFrames_eq]
  simp [hj]

/-- The phase and the loop registers of a write step. -/
structure WriteLoop where
  phase : Phase
  i : Nat
  n : Nat
  a : Nat

/-- Those of PROGRAM's write step `k`: the erase steps come first, the pages after them (R122). -/
def writeLoop (c : Config) (g : GeomRegs) (d : Bytes) (k : Nat) : WriteLoop :=
  if k < eraseSteps c d.length g then ⟨.erase, k, eraseSteps c d.length g, eraseAddr g k⟩
  else ⟨.program, k - eraseSteps c d.length g, pageCount d.length, pageAddr (k - eraseSteps c d.length g)⟩

theorem writeLoop_erase {c : Config} {g : GeomRegs} {d : Bytes} {k : Nat} (hk : k < eraseSteps c d.length g) :
    writeLoop c g d k = ⟨.erase, k, eraseSteps c d.length g, eraseAddr g k⟩ := if_pos hk

theorem writeLoop_page (c : Config) (g : GeomRegs) (d : Bytes) (j : Nat) :
    writeLoop c g d (eraseSteps c d.length g + j) = ⟨.program, j, pageCount d.length, pageAddr j⟩ := by
  simp [writeLoop]

/-- A write step of PROGRAM erases, or it is that of a page. -/
theorem erase_or_page (c : Config) (g : GeomRegs) (d : Bytes) (k : Nat) :
    k < eraseSteps c d.length g ∨ ∃ j, k = eraseSteps c d.length g + j :=
  (Nat.lt_or_ge k _).imp_right Nat.exists_eq_add_of_le

/-- An image with a byte has an erase step under either strategy (R123, R124). -/
theorem eraseSteps_ne_zero {c : Config} {g : GeomRegs} {l : Nat} (hs : g.sectorLen.toNat ≠ 0) (hl : l ≠ 0) :
    eraseSteps c l g ≠ 0 := by
  have hsectors : 0 < sectorCount l g := ceilDiv_pos (Nat.pos_of_ne_zero hs) (Nat.pos_of_ne_zero hl)
  unfold eraseSteps
  split <;> omega

/-- An empty image has none, and no page either. -/
theorem startErasePhase_zero {s : State} (hs : s.geom.sectorLen.toNat ≠ 0) : startErasePhase 0 s = respond .none s := by
  have hsectors : sectorCount 0 s.geom = 0 := Nat.div_eq_of_lt (by omega)
  have hsteps : eraseSteps s.cfg 0 s.geom = 0 := by
    unfold eraseSteps
    split <;> simp [hsectors]
  rw [startErasePhase, if_pos hsteps, startProgramPhase, if_pos (by decide)]

/-- `s` where PROGRAM's write step `k` begins. -/
def State.atWriteStep (s : State) (d : Bytes) (k : Nat) : State :=
  startWriteStep (writeLoop s.cfg s.geom d k).phase (writeLoop s.cfg s.geom d k).i (writeLoop s.cfg s.geom d k).n
    (writeLoop s.cfg s.geom d k).a s

theorem startProgramPhase_eq {s : State} {d : Bytes} (hn : pageCount d.length ≠ 0) :
    startProgramPhase d.length s = s.atWriteStep d (eraseSteps s.cfg d.length s.geom + 0) := by
  rw [startProgramPhase, if_neg hn, State.atWriteStep, writeLoop_page]

theorem startErasePhase_eq {s : State} {d : Bytes} (hn : eraseSteps s.cfg d.length s.geom ≠ 0) :
    startErasePhase d.length s = s.atWriteStep d 0 := by
  rw [startErasePhase, if_neg hn, State.atWriteStep, writeLoop_erase (Nat.pos_of_ne_zero hn)]

/-- The frame of write step `k` is the image's frame number `k`. -/
theorem destructiveInstr_atWriteStep {s : State} {d : Bytes} {k : Nat} {f : Bytes} (hd : imageOk d = true)
    (hs : s.geom.sectorLen.toNat ≠ 0) (hk : (imageFrames s.cfg s.geom d)[k]? = some f) :
    ∃ w, destructiveInstr (.program d) (s.atWriteStep d k) = some w ∧ encodeFrame w = some f := by
  obtain he | ⟨j, rfl⟩ := erase_or_page s.cfg s.geom d k
  · obtain rfl : eraseFrame s.cfg s.geom k = f := Option.some.inj ((imageFrames_erase he).symm.trans hk)
    rw [State.atWriteStep, writeLoop_erase he]
    cases hst : s.cfg.eraseStrategy with
    | sector =>
      have hlt : k < sectorCount d.length s.geom := by simpa [eraseSteps, hst] using he
      obtain ⟨haddr, -⟩ := eraseAddr_fits hd hs hlt
      exact ⟨.se (eraseAddr s.geom k), by simp [destructiveInstr, hst],
        by simp [eraseFrame, hst, encodeFrame, codecEncode_some opSE [] haddr]⟩
    | bulk => exact ⟨.be, by simp [destructiveInstr, hst], by simp [eraseFrame, hst, encodeFrame]⟩
  · have hj : j < pageCount d.length := by
      obtain ⟨hlt, -⟩ := List.getElem?_eq_some_iff.mp hk
      rw [imageFrames_length] at hlt
      omega
    obtain rfl : pageFrame d j = f := Option.some.inj ((imageFrames_page hj).symm.trans hk)
    obtain ⟨haddr, -⟩ := (ppOperandsOk_iff ..).mp (ppOperandsOk_page hd hj)
    rw [State.atWriteStep, writeLoop_page]
    exact ⟨_, rfl, codecEncode_some opPP _ haddr⟩

/-- Behind the frame of write step `k`: the next write step, or the response after the last page (R128). -/
theorem afterDestructive_program {s : State} {d : Bytes} {k : Nat}
    (hp : s.pos.phase = (writeLoop s.cfg s.geom d k).phase) (hi : s.work.i = (writeLoop s.cfg s.geom d k).i)
    (hn : s.work.n = (writeLoop s.cfg s.geom d k).n) :
    afterDestructive (.program d) s =
      if k + 1 < (imageFrames s.cfg s.geom d).length then s.atWriteStep d (k + 1) else respond .none s := by
  rw [imageFrames_length]
  obtain he | ⟨j, rfl⟩ := erase_or_page s.cfg s.geom d k
  · rw [writeLoop_erase he] at hp hi hn
    simp only [afterDestructive, hp, hi, hn, imageLen]
    by_cases hnext : k + 1 < eraseSteps s.cfg d.length s.geom
    · rw [if_pos hnext, if_pos (by omega), State.atWriteStep, writeLoop_erase hnext]
    · have hlast : eraseSteps s.cfg d.length s.geom = k + 1 := by omega
      rw [if_neg hnext, hlast]
      by_cases hpages : pageCount d.length = 0
      · rw [startProgramPhase, if_pos hpages, if_neg (by omega)]
      · rw [startProgramPhase_eq hpages, if_pos (by omega), hlast, Nat.add_zero]
  · rw [writeLoop_page] at hp hi hn
    simp only [afterDestructive, hp, hi, hn]
    by_cases hnext : j + 1 < pageCount d.length
    · rw [if_pos hnext, if_pos (by omega), State.atWriteStep, Nat.add_assoc, writeLoop_page]
    · rw [if_neg hnext, if_neg (by omega)]

theorem getElem?_of_drop_eq_cons {F fs : List Bytes} {k : Nat} {f : Bytes} (h : F.drop k = f :: fs) :
    F[k]? = some f ∧ F.drop (k + 1) = fs ∧ F.length = k + 1 + fs.length := by
  refine ⟨?_, ?_, ?_⟩
  · rw [← List.head?_drop, h, List.head?_cons]
  · rw [← List.tail_drop, h, List.tail_cons]
  · have hl := congrArg List.length h
    rw [List.length_drop, List.length_cons] at hl
    omega

section Image
variable {s : State} {d : Bytes} (h : Latched (.program d) s) (hd : imageOk d = true) (hs : s.geom.sectorLen.toNat ≠ 0)
include h hd hs

/-- One write step of PROGRAM over a script that fits. -/
theorem Latched.run_atWriteStep {k : Nat} {f : Bytes} {w : WriteScript} {rest : List Answer}
    (hk : (imageFrames s.cfg s.geom d)[k]? = some f) (hfit : w.fits s.geom.busy f = true)
    (ha : s.answers = w.answers ++ rest) :
    Host.Core.run Sys2Proof.core w.steps (s.atWriteStep d k) = .next
      (if k + 1 < (imageFrames s.cfg s.geom d).length then ((s.atWriteStep d k).written w f rest).atWriteStep d (k + 1)
      else respond .none ((s.atWriteStep d k).written w f rest)) := by
  obtain ⟨i, hi, hf⟩ := destructiveInstr_atWriteStep hd hs hk
  exact ((h.startWriteStep ..).run_writeStep rfl rfl hi hf hfit ha).trans
    (congrArg _ (afterDestructive_program rfl rfl rfl))

/-- PROGRAM's write steps for the frames from number `k` on, over scripts that fit, and the response. -/
theorem Latched.run_writeSteps {k : Nat} {fs : List Bytes} {ws : List WriteScript} {w : WriteScript} {rest : List Answer}
    (hfs : (imageFrames s.cfg s.geom d).drop k = fs) (hlen : (ws ++ [w]).length = fs.length)
    (hfit : ∀ p ∈ (ws ++ [w]).zip fs, p.1.fits s.geom.busy p.2 = true)
    (ha : s.answers = (ws ++ [w]).flatMap WriteScript.answers ++ rest) :
    ∃ t, Host.Core.run Sys2Proof.core ((ws ++ [w]).map WriteScript.steps).sum (s.atWriteStep d k) = .next t ∧
      WritesDone s t w.wait.idleByte (((ws ++ [w]).zip fs).flatMap (fun p => p.1.events s.geom.busy p.2)) rest := by
  induction ws generalizing s k fs with
  | nil =>
    obtain ⟨f, rfl⟩ := List.length_eq_one_iff.mp hlen.symm
    obtain ⟨hget, -, hleft⟩ := getElem?_of_drop_eq_cons hfs
    have hrun := h.run_atWriteStep hd hs hget (hfit _ List.mem_cons_self) (by simpa using ha)
    refine ⟨_, hrun.trans (congrArg _ (if_neg (by simp [hleft]))), ?_⟩
    rw [List.nil_append, List.zip_cons_cons, List.zip_nil_left, List.flatMap_singleton]
    exact writesDone_respond
  | cons v ws ih =>
    obtain _ | ⟨f, fs⟩ := fs
    · cases hlen
    obtain ⟨hget, hdrop, hleft⟩ := getElem?_of_drop_eq_cons hfs
    obtain ⟨hv, hws⟩ := List.forall_mem_cons.mp hfit
    have htail : (ws ++ [w]).length = fs.length := Nat.succ.inj hlen
    have hmore : 0 < fs.length := by
      rw [← htail, List.length_append]
      exact Nat.succ_pos _
    have hrun := (h.run_atWriteStep hd hs hget hv (ha.trans (List.append_assoc ..))).trans
      (congrArg _ (if_pos (by omega)))
    obtain ⟨t, ht, hdone⟩ := ih ((h.startWriteStep ..).written v f _) hs hdrop htail hws rfl
    exact ⟨t, run_trans hrun ht, hdone.of_written⟩

end Image

/-- Settles O33: an empty image has no write step; the first write step of any other is number 0. -/
theorem programCompletes : Obligations.ProgramCompletes := by
  intro s d h hg hs hlen
  have hd : imageOk d = true := decide_eq_true hlen
  have hx : exec (.program d) s = .next (startErasePhase d.length s) := checked_of_pass _ hg hd
  refine ⟨?_, fun ws w rest hne hcount hfit ha => ?_⟩
  · rintro rfl
    exact hx.trans (congrArg _ (startErasePhase_zero hs))
  · obtain ⟨t, hrun, hdone⟩ := h.run_writeSteps hd hs (k := 0) rfl hcount hfit ha
    rw [startErasePhase_eq (eraseSteps_ne_zero hs (fun h0 => hne (List.length_eq_zero_iff.mp h0)))] at hx
    exact ⟨_, t, hx, hrun, hdone⟩

end Sys2Proof.Machine

/-! ## spec/44_read_verify.md: the chunks of a read; compare; READ and VERIFY; VERIFY after PROGRAM with the reference chip -/

namespace Sys2Proof.Machine

/-! ### compare (R133) -/

/-- Counting from one offset further on adds one to the offset found. -/
theorem firstMismatch_succ (k : Nat) (r ref : Bytes) :
    firstMismatch (k + 1) r ref = (firstMismatch k r ref).map (· + 1) := by
  induction r generalizing k ref with
  | nil => rfl
  | cons x r ih =>
    cases ref with
    | nil => rfl
    | cons y ref =>
      simp only [firstMismatch]
      split
      · exact ih (k + 1) ref
      · rfl

@[simp] theorem compareBytes_nil : compareBytes [] [] = none := rfl

theorem compareBytes_cons (x y : Byte) (r ref : Bytes) :
    compareBytes (x :: r) (y :: ref) = if x = y then (compareBytes r ref).map (· + 1) else some 0 := by
  rw [compareBytes, firstMismatch, firstMismatch_succ]
  rfl

theorem compareBytes_eq_none_iff {r ref : Bytes} (h : r.length = ref.length) : compareBytes r ref = none ↔ r = ref := by
  induction r generalizing ref with
  | nil => simp [List.length_eq_zero_iff.mp h.symm]
  | cons x r ih =>
    obtain _ | ⟨y, ref⟩ := ref
    · cases h
    · rw [compareBytes_cons, List.cons.injEq, ← ih (Nat.succ.inj h)]
      split <;> simp_all

/-- `i` is the least offset at which the two differ. -/
def LeastMismatch (r ref : Bytes) (i : Nat) : Prop := r[i]? ≠ ref[i]? ∧ ∀ k, k < i → r[k]? = ref[k]?

theorem LeastMismatch.unique {r ref : Bytes} {i j : Nat} (hi : LeastMismatch r ref i) (hj : LeastMismatch r ref j) :
    i = j := by
  obtain hlt | rfl | hgt := Nat.lt_trichotomy i j
  · exact absurd (hj.2 i hlt) hi.1
  · rfl
  · exact absurd (hi.2 j hgt) hj.1

/-- Between sequences of one length it lies inside them. -/
theorem LeastMismatch.lt_length {r ref : Bytes} {i : Nat} (h : r.length = ref.length) (hi : LeastMismatch r ref i) :
    i < r.length := by
  by_contra hge
  refine hi.1 ?_
  rw [List.getElem?_eq_none (by omega), List.getElem?_eq_none (by omega)]

theorem LeastMismatch.cons {r ref : Bytes} {i : Nat} (x : Byte) (hi : LeastMismatch r ref i) :
    LeastMismatch (x :: r) (x :: ref) (i + 1) := by
  refine ⟨hi.1, fun k hk => ?_⟩
  cases k with
  | zero => rfl
  | succ k => exact hi.2 k (Nat.lt_of_succ_lt_succ hk)

theorem leastMismatch_of_compareBytes {r ref : Bytes} {i : Nat} (h : compareBytes r ref = some i) :
    LeastMismatch r ref i := by
  induction r generalizing ref i with
  | nil => cases h
  | cons x r ih =>
    obtain _ | ⟨y, ref⟩ := ref
    · cases h
    rw [compareBytes_cons] at h
    split at h
    next hxy =>
      obtain ⟨j, hj, rfl⟩ := Option.map_eq_some_iff.mp h
      exact hxy ▸ (ih hj).cons x
    next hxy =>
      cases h
      exact ⟨by simpa using hxy, fun k hk => absurd hk (Nat.not_lt_zero k)⟩

theorem compareBytes_eq_some_iff {r ref : Bytes} {i : Nat} (h : r.length = ref.length) :
    compareBytes r ref = some i ↔ LeastMismatch r ref i := by
  refine ⟨leastMismatch_of_compareBytes, fun hi => ?_⟩
  cases hc : compareBytes r ref with
  | none => exact absurd (by rw [(compareBytes_eq_none_iff h).mp hc]) hi.1
  | some j => rw [(leastMismatch_of_compareBytes hc).unique hi]

/-- Settles O36: an offset found is the least one that differs, and there is only one such. -/
theorem compareFindsFirstMismatch : Obligations.CompareFindsFirstMismatch := by
  intro r ref h
  refine ⟨compareBytes_eq_none_iff h, fun i => (compareBytes_eq_some_iff h).trans ?_⟩
  exact ⟨fun hi => ⟨hi.lt_length h, hi⟩, fun hi => hi.2⟩

/-! ### The chunks of a read (R129, R131) -/

/-- The first `k` chunks end where chunk `k` begins, or at the end of the range. -/
theorem sum_chunkLen (c : Config) (l k : Nat) :
    ((List.range k).map (chunkLen c l)).sum = min (chunkOff c k) l := by
  induction k with
  | zero => simp [chunkOff]
  | succ k ih =>
    have hs : chunkOff c (k + 1) = chunkOff c k + c.readChunk := Nat.succ_mul k c.readChunk
    rw [List.sum_range_succ, ih, hs, chunkLen]
    omega

/-- All of them together have the range's length. -/
theorem sum_chunkLen_chunkCount {c : Config} (hc : 1 ≤ c.readChunk) (l : Nat) :
    ((List.range (chunkCount c l)).map (chunkLen c l)).sum = l := by
  have hend : l ≤ chunkOff c (chunkCount c l) := le_ceilDiv_mul hc l
  rw [sum_chunkLen, min_eq_right hend]

/-- The last chunk reaches the end of the range. -/
theorem le_chunkOff_add_chunkLen {c : Config} {l k : Nat} (hc : 1 ≤ c.readChunk) (hk : ¬ k + 1 < chunkCount c l) :
    l ≤ chunkOff c k + chunkLen c l k := by
  have hend : l ≤ chunkOff c (k + 1) := (le_ceilDiv_mul hc l).trans (Nat.mul_le_mul_right _ (Nat.le_of_not_lt hk))
  have hs : chunkOff c (k + 1) = chunkOff c k + c.readChunk := Nat.succ_mul k c.readChunk
  unfold chunkLen
  omega

/-- Settles O55: a chunk of the range begins inside it, so the chunks before it are whole. -/
theorem chunksCoverTheRange : Obligations.ChunksCoverTheRange := by
  intro c a l hc _ hrange
  refine ⟨rfl, sum_chunkLen_chunkCount hc l, fun k hk => ?_⟩
  obtain ⟨h1, h2, -⟩ := chunk_inside hc hk
  have hoff : chunkOff c k < l := mul_lt_of_lt_ceilDiv hc hk
  have hs : chunkOff c (k + 1) = chunkOff c k + c.readChunk := Nat.succ_mul k c.readChunk
  refine ⟨h1, h2, by omega, by omega, fun hnext => ?_, ?_⟩
  · have hfull := chunkOff_succ hc hnext
    omega
  · rw [sum_chunkLen, min_eq_left hoff.le]

/-! ### The frames of a read and the data of their answers (R98, R129) -/

/-- The frame of chunk `k` (R129). -/
def chunkFrame (c : Config) (a l k : Nat) : Bytes := opREAD :: (le24 (a + chunkOff c k) ++ fill (chunkLen c l k))

theorem chunkFrames_eq (c : Config) (a l : Nat) :
    chunkFrames c a l = (List.range (chunkCount c l)).map (chunkFrame c a l) := rfl

@[simp] theorem chunkFrames_length (c : Config) (a l : Nat) : (chunkFrames c a l).length = chunkCount c l := by
  simp [chunkFrames_eq]

theorem chunkFrames_getElem? {c : Config} {a l k : Nat} {f : Bytes} (h : (chunkFrames c a l)[k]? = some f) :
    k < chunkCount c l ∧ f = chunkFrame c a l k := by
  obtain ⟨hk, rfl⟩ := List.getElem?_eq_some_iff.mp h
  exact ⟨by simpa using hk, by simp [chunkFrames_eq]⟩

theorem encodeFrame_chunkInstr {c : Config} {a l k : Nat} (hc : 1 ≤ c.readChunk) (ha : a + l ≤ addrLimit)
    (hk : k < chunkCount c l) : encodeFrame (chunkInstr c a l k) = some (chunkFrame c a l k) := by
  have hoff : chunkOff c k < l := mul_lt_of_lt_ceilDiv hc hk
  exact codecEncode_some opREAD _ (by omega)

@[simp] theorem chunkFrame_length (c : Config) (a l k : Nat) : (chunkFrame c a l k).length = 4 + chunkLen c l k := by
  simp only [chunkFrame, List.length_cons, List.length_append, le24_length, fill_length]
  omega

theorem lengthsFit_cons {f r : Bytes} {fs rs : List Bytes} :
    lengthsFit (f :: fs) (r :: rs) = true ↔ r.length = f.length ∧ lengthsFit fs rs = true := by
  simp [lengthsFit]

theorem lengthsFit_length {fs rs : List Bytes} (h : lengthsFit fs rs = true) : rs.length = fs.length := by
  simpa using congrArg List.length (of_decide_eq_true h)

/-- Answers of the frames' lengths hold as many data bytes as were asked for (R131). -/
theorem chunkData_length {c : Config} {a l : Nat} {rs : List Bytes} (hc : 1 ≤ c.readChunk)
    (h : lengthsFit (chunkFrames c a l) rs = true) : (chunkData rs).length = l := by
  have hlens : rs.map List.length = (List.range (chunkCount c l)).map (fun k => 4 + chunkLen c l k) := by
    rw [of_decide_eq_true h, chunkFrames_eq, List.map_map]
    exact List.map_congr_left fun k _ => chunkFrame_length c a l k
  calc (chunkData rs).length
      = ((rs.map List.length).map (· - 4)).sum := by simp [chunkData, List.length_flatMap, Function.comp_def]
    _ = ((List.range (chunkCount c l)).map (chunkLen c l)).sum := by rw [hlens]; simp [Function.comp_def]
    _ = l := sum_chunkLen_chunkCount hc l

/-! ### ChunkedRead (R129) -/

/-- `s` after the read-data frames `fs` have been answered by `rs`: their data at the end of RBUF. -/
def State.chunksRead (s : State) (k : WorkRegs) (fs rs : List Bytes) (rest : List Answer) : State :=
  { s with
    work := k
    cs := false
    rbuf := s.rbuf ++ chunkData rs
    trace := s.trace ++ zipEvents fs rs
    answers := rest }

theorem State.chunksRead_cons (s : State) (k k' : WorkRegs) (f r : Bytes) (fs rs : List Bytes) (as rest : List Answer) :
    (s.chunksRead k [f] [r] as).chunksRead k' fs rs rest = s.chunksRead k' (f :: fs) (r :: rs) rest := by
  simp [State.chunksRead, zipEvents, chunkData]

/-- The lines behind an answered read-data frame: on to the next chunk, or to what follows the last one. -/
theorem advance_sendRead (i : Instr) {s : State} (hl : s.pos.line = .sendRead) (c : Config) (a l k : Nat) (f r : Bytes)
    (rest : List Answer) :
    advance i (s.received (chunkInstr c a l k) f r rest) =
      if s.work.i + 1 < s.work.n then s.chunksRead { s.work with resp := r, i := s.work.i + 1 } [f] [r] rest
      else finishRead i (s.chunksRead { s.work with resp := r } [f] [r] rest) := by
  have hdata : s.rbuf ++ codecDecode r 4 = s.rbuf ++ chunkData [r] := by simp [chunkData]
  simp only [advance, State.received_pos, hl, afterChunk, State.received_rbuf, State.received_work, hdata]
  rfl

/-- The sequencer stands at a chunk of request `i`; `fs` are the frames from it on. -/
structure AtChunk (i : Instr) (fs : List Bytes) (s : State) : Prop where
  latched : Latched i s
  role : waitRole i = some .read
  range : readAddr i + readLen i ≤ addrLimit
  line : s.pos.line = .sendRead
  addr : s.work.a = readAddr i
  bound : s.work.n = chunkCount s.cfg (readLen i)
  frames : (chunkFrames s.cfg (readAddr i) (readLen i)).drop s.work.i = fs

/-- One chunk: the loop goes on exactly while frames are left. -/
theorem AtChunk.step {i : Instr} {f r : Bytes} {fs : List Bytes} {s : State} {rest : List Answer} (h : AtChunk i (f :: fs) s)
    (hr : r.length = f.length) (ha : s.answers = .bytes r :: rest) :
    Machine.step s = .next
      (if fs = [] then finishRead i (s.chunksRead { s.work with resp := r } [f] [r] rest)
      else s.chunksRead { s.work with resp := r, i := s.work.i + 1 } [f] [r] rest) := by
  obtain ⟨hget, -, hlen⟩ := getElem?_of_drop_eq_cons h.frames
  obtain ⟨hk, rfl⟩ := chunkFrames_getElem? hget
  have hf := encodeFrame_chunkInstr (readChunk_pos h.latched.config) h.range hk
  have hw : lineInstr i s = some (chunkInstr s.cfg (readAddr i) (readLen i) s.work.i) := by
    simp [lineInstr, h.line, h.role, h.addr]
  rw [h.latched.step_received (by simp [h.line]) hw hf ha hr, advance_sendRead i h.line]
  rw [chunkFrames_length, ← h.bound] at hlen
  cases fs with
  | nil => rw [if_neg (by simp [hlen]), if_pos rfl]
  | cons f' fs => rw [if_pos (by simp [hlen]), if_neg (by simp)]

theorem AtChunk.next {i : Instr} {f : Bytes} {fs : List Bytes} {s : State} (h : AtChunk i (f :: fs) s) (r : Bytes)
    (rest : List Answer) : AtChunk i fs (s.chunksRead { s.work with resp := r, i := s.work.i + 1 } [f] [r] rest) where
  latched := ⟨h.latched.config, h.latched.executing, h.latched.request⟩
  role := h.role
  range := h.range
  line := h.line
  addr := h.addr
  bound := h.bound
  frames := (getElem?_of_drop_eq_cons h.frames).2.1

/-- The chunks from one on, answered, and what follows the last one. -/
theorem AtChunk.run {i : Instr} {fs rs : List Bytes} {s : State} {rest : List Answer} (h : AtChunk i fs s) (hne : fs ≠ [])
    (hfit : lengthsFit fs rs = true) (ha : s.answers = rs.map Answer.bytes ++ rest) :
    ∃ k, Host.Core.run Sys2Proof.core rs.length s = .next (finishRead i (s.chunksRead k fs rs rest)) := by
  induction fs generalizing s rs with
  | nil => exact absurd rfl hne
  | cons f fs ih =>
    obtain _ | ⟨r, rs⟩ := rs
    · cases lengthsFit_length hfit
    obtain ⟨hr, hfit'⟩ := lengthsFit_cons.mp hfit
    have hstep := h.step hr ha
    by_cases hlast : fs = []
    · subst hlast
      obtain rfl := List.length_eq_zero_iff.mp (lengthsFit_length hfit')
      exact ⟨_, run_succ 0 hstep⟩
    · rw [if_neg hlast] at hstep
      obtain ⟨k, hrun⟩ := ih (h.next r _) hlast hfit' rfl
      rw [State.chunksRead_cons] at hrun
      exact ⟨k, (run_succ _ hstep).trans hrun⟩

/-! ### EnsureIdle, then ChunkedRead (R114, R129) -/

/-- `s` after EnsureIdle and ChunkedRead, its polls those of `w`. -/
def State.readBack (s : State) (k : WorkRegs) (w : Option WaitScript) (fs rs : List Bytes) (rest : List Answer) : State :=
  { s with
    pos := { line := .sendRead, phase := .single }
    work := k
    wstate := .idle
    poll := ensurePoll s w
    cs := false
    rbuf := chunkData rs
    trace := s.trace ++ ensureEvents s.geom.busy w ++ zipEvents fs rs
    answers := rest }

section Read
variable {i : Instr} {s : State} {rs : List Bytes} {rest : List Answer} (h : Latched i s) (hr : waitRole i = some .read)
  (hlen : readLen i ≠ 0) (hrange : readAddr i + readLen i ≤ addrLimit)
  (hfit : lengthsFit (chunkFrames s.cfg (readAddr i) (readLen i)) rs = true)
include h hr hlen hrange hfit

/-- All the chunks, from the first on (R129). -/
theorem Latched.run_beginChunks (hi : s.work.i = 0) (ha : s.work.a = readAddr i)
    (hn : s.work.n = chunkCount s.cfg (readLen i)) (hans : s.answers = rs.map Answer.bytes ++ rest) :
    ∃ k, Host.Core.run Sys2Proof.core rs.length (beginChunks s) =
      .next (finishRead i ((beginChunks s).chunksRead k (chunkFrames s.cfg (readAddr i) (readLen i)) rs rest)) := by
  have hcount : 0 < chunkCount s.cfg (readLen i) := ceilDiv_pos (readChunk_pos h.config) (Nat.pos_of_ne_zero hlen)
  have hat : AtChunk i (chunkFrames s.cfg (readAddr i) (readLen i)) (beginChunks s) :=
    { latched := ⟨h.config, h.executing, h.request⟩, role := hr, range := hrange, line := rfl, addr := ha, bound := hn
      frames := by simp [hi] }
  exact hat.run (List.ne_nil_of_length_pos (by rwa [chunkFrames_length])) hfit hans

/-- A read of one byte or more: its polls, its chunks, and the lines behind them. -/
theorem Latched.run_read {w : Option WaitScript} (hw : EnsureFits s w)
    (ha : s.answers = ensureAnswers w ++ rs.map Answer.bytes ++ rest) :
    ∃ k, Host.Core.run Sys2Proof.core ((ensureAnswers w).length + rs.length) (startRead (readAddr i) (readLen i) s) =
      .next (finishRead i (s.readBack k w (chunkFrames s.cfg (readAddr i) (readLen i)) rs rest)) := by
  have hloop : Latched i (s.setLoop 0 (chunkCount s.cfg (readLen i)) (readAddr i)) := ⟨h.config, h.executing, h.request⟩
  cases w with
  | none =>
    have hidle : s.wstate = .idle := hw
    obtain ⟨k, hrun⟩ := hloop.run_beginChunks hr hlen hrange hfit rfl rfl rfl ha
    refine ⟨k, ?_⟩
    rw [startRead, if_pos hidle, show (ensureAnswers none).length = 0 from rfl, Nat.zero_add, hrun]
    simp [State.chunksRead, State.readBack, State.setRbuf, State.goto, State.setLoop, ensurePoll, ensureEvents, hidle]
  | some w =>
    obtain ⟨hbusy, hfits⟩ : s.wstate ≠ .idle ∧ w.fits s.geom.busy = true := hw
    have hwaiting := hloop.goto .waitIdle .single
    have hwait := hwaiting.run_waitIdle (w := w) rfl (by rw [hr]; rfl) hfits (ha.trans (List.append_assoc ..))
    rw [afterIdle, hr] at hwait
    obtain ⟨k, hrun⟩ := (hwaiting.waited w _).run_beginChunks hr hlen hrange hfit rfl rfl rfl rfl
    refine ⟨k, ?_⟩
    rw [startRead, if_neg hbusy, show (ensureAnswers (some w)).length = w.busy.length + 1 by
      simp [ensureAnswers, WaitScript.answers]]
    exact run_trans hwait hrun

end Read

/-! ### READ (R130) -/

theorem exec_read {s : State} {a l : BitVec 32} (hg : s.geom.valid = true) (h24 : a.toNat < addrLimit)
    (hrange : a.toNat + l.toNat ≤ addrLimit) :
    exec (.read a l) s =
      if l.toNat = 0 then .next (respond (.read []) (s.setRbuf [])) else .next (startRead a.toNat l.toNat s) :=
  checked_of_pass _ hg (Bool.and_eq_true_iff.mpr ⟨decide_eq_true h24, decide_eq_true hrange⟩)

/-- Settles O34: without a byte to read the response comes at once; else it follows the chunks. -/
theorem readCompletes : Obligations.ReadCompletes := by
  intro s a l h hg h24 hrange
  have hx := exec_read hg h24 hrange
  refine ⟨fun h0 => hx.trans (if_pos h0), fun w rs rest h0 hw hfit ha => ?_⟩
  obtain ⟨k, hrun⟩ := h.run_read rfl h0 hrange hfit hw ha
  exact ⟨chunkData_length (readChunk_pos h.config) hfit, _, _, hx.trans (if_neg h0), hrun, rfl⟩

/-! ### VERIFY (R132 to R134) -/

theorem verifyRegs_of_match {s : State} {ref : Bytes} (h : s.rbuf = ref) :
    verifyRegs s ref = { s.verify with matched := true, offsetValid := false, valid := true } := by
  rw [verifyRegs, (compareBytes_eq_none_iff (congrArg List.length h)).mpr h]

/-- A window is what stands at the offset, cut at VERIFY_WINDOW bytes (R134). -/
theorem verifyWindow_eq (c : Config) {l : Nat} {buf : Bytes} (h : buf.length = l) (off : Nat) :
    verifyWindow c l buf off = (buf.drop off).take c.verifyWindow := by
  rw [verifyWindow, slice, List.drop_take, List.take_eq_take_iff, List.length_drop]
  omega

theorem verifyRegs_of_mismatch {s : State} {ref : Bytes} (hlen : s.rbuf.length = ref.length) (h24 : ref.length ≤ 2 ^ 24)
    (hne : s.rbuf ≠ ref) :
    (verifyRegs s ref).valid = true ∧ (verifyRegs s ref).matched = false ∧ (verifyRegs s ref).offsetValid = true ∧
      LeastMismatch s.rbuf ref (verifyRegs s ref).offset.toNat ∧
      (verifyRegs s ref).winRead = (s.rbuf.drop (verifyRegs s ref).offset.toNat).take s.cfg.verifyWindow ∧
      (verifyRegs s ref).winRef = (ref.drop (verifyRegs s ref).offset.toNat).take s.cfg.verifyWindow := by
  cases hc : compareBytes s.rbuf ref with
  | none => exact absurd ((compareBytes_eq_none_iff hlen).mp hc) hne
  | some off =>
    have hleast := leastMismatch_of_compareBytes hc
    have hlt : off < ref.length := hlen ▸ hleast.lt_length hlen
    have hoff : (BitVec.ofNat 32 off).toNat = off := (BitVec.toNat_ofNat ..).trans (Nat.mod_eq_of_lt (by omega))
    simp only [verifyRegs, hc, hoff, true_and]
    exact ⟨hleast, verifyWindow_eq s.cfg hlen off, verifyWindow_eq s.cfg rfl off⟩

theorem verifyRegs_matched {s : State} {ref : Bytes} (hlen : s.rbuf.length = ref.length) :
    (verifyRegs s ref).matched = true ↔ s.rbuf = ref := by
  rw [← compareBytes_eq_none_iff hlen, verifyRegs]
  split <;> simp [*]

/-- VERIFY's response says a match, or the mismatch the registers hold (R132). -/
theorem finishVerify_eq {s : State} {ref : Bytes} (hlen : s.rbuf.length = ref.length) :
    finishVerify ref s =
      { s with
        seqState := .ready
        lastStatus := .ok
        verify := verifyRegs s ref
        responses := s.responses ++
          [{ status := .ok,
             fields := .verify (if s.rbuf = ref then none
               else some
                 { offset := (verifyRegs s ref).offset
                   winRead := (verifyRegs s ref).winRead
                   winRef := (verifyRegs s ref).winRef }) }] } := by
  simp only [← verifyRegs_matched hlen]
  rfl

theorem exec_verify {s : State} {ref : Bytes} (hg : s.geom.valid = true) (hlen : ref.length ≤ addrLimit) :
    exec (.verify ref) s =
      if ref.length = 0 then .next (finishVerify ref ((s.verifyCleared (.verify ref)).setRbuf []))
      else .next (startRead 0 ref.length (s.verifyCleared (.verify ref))) :=
  checked_of_pass (s := s.verifyCleared (.verify ref)) _ hg (decide_eq_true hlen)

/-- Settles O35: an empty reference is compared at once, any other with what the chunks left in RBUF. -/
theorem verifyCompletes : Obligations.VerifyCompletes := by
  intro s ref h hg h24
  have hx := exec_verify hg h24
  refine ⟨?_, fun w rs rest hne hw hfit ha => ?_⟩
  · rintro rfl
    exact hx
  · have h0 : ref.length ≠ 0 := fun h => hne (List.length_eq_zero_iff.mp h)
    have hlat : Latched (.verify ref) (s.verifyCleared (.verify ref)) := ⟨h.config, h.executing, h.request⟩
    obtain ⟨k, hrun⟩ := hlat.run_read rfl h0 ((Nat.zero_add _).trans_le h24) hfit hw ha
    have hlen : (chunkData rs).length = ref.length := chunkData_length (readChunk_pos h.config) hfit
    refine ⟨_, _, hx.trans (if_neg h0), hrun, finishVerify_eq hlen, fun hmatch => ?_, fun hmis => ?_⟩
    · exact verifyRegs_of_match (s := (s.verifyCleared (.verify ref)).readBack k w _ rs rest) hmatch
    · obtain ⟨hvalid, hmatched, hoff, hleast, hread, href⟩ :=
        verifyRegs_of_mismatch (s := (s.verifyCleared (.verify ref)).readBack k w _ rs rest) hlen h24 hmis
      exact ⟨hvalid, hmatched, hoff, hleast.2, hleast.1, hread, href⟩

/-! ### The reference chip's answers, and what every frame leaves of the chip (R64 to R71) -/

namespace Chip
variable (c : Chip) (d : Draws)

/-- The register byte a status frame of method `m` is answered with (R66). -/
def pollByte : BusyMethod → Byte
  | .status => c.statusByte d
  | .flag => c.flagByte d

theorem serve_pollFrame (m : BusyMethod) : c.serve d (pollFrame m) = ([d.byte 0, c.pollByte d m], c.polled) := by
  cases m <;> rfl

/-- The chip reports busy exactly while busy polls are left, by either method (R66, R107). -/
theorem checkBusy_pollByte (m : BusyMethod) :
    checkBusy m (c.pollByte d m) = if 0 < c.busyLeft then .busy else .idle := by
  by_cases hb : 0 < c.busyLeft
  · cases m <;> simp [pollByte, statusByte, flagByte, checkBusy, hb]
  · cases m <;> simp [pollByte, statusByte, flagByte, checkBusy, hb]

theorem serve_be_of_decode {f : Bytes} (h : decodeFrame f = .ok .be) :
    (c.serve d f).2 = c.destructive d c.flash.eraseAll := by
  simp only [serve, h]

theorem serve_wren : (c.serve d [opWREN]).2 = if c.busyLeft = 0 then { c with wel := true } else c := rfl

theorem identAnswer_length (n : Nat) : (c.identAnswer d n).length = 1 + n := by
  unfold identAnswer
  split
  · simp
  · simp only [List.length_cons, List.length_take, List.length_append, Draws.take_length]
    omega

/-- The chip answers a frame that decodes with the frame's length. -/
theorem serve_length {f : Bytes} {w : Instr} (h : decodeFrame f = .ok w) : (c.serve d f).1.length = f.length := by
  simp only [serve, h]
  cases frameOf_of_decodeFrame h with
  | rdid => simp [identAnswer_length, Nat.add_comm]
  | readData => simp; omega
  | _ => simp

variable {c}

/-- A status frame leaves the array. -/
@[simp] theorem polled_flash : c.polled.flash = c.flash := by
  unfold polled
  split
  · rfl
  · split <;> rfl

theorem polled_busyLeft (h : c.busyLeft = 0) : c.polled.busyLeft = 0 := by
  unfold polled
  rw [if_neg (by omega)]
  split <;> exact h

/-- The parts of a chip that no frame changes, and its array's canonical form. -/
structure SameDevice (c c' : Chip) : Prop where
  sectorLen : c'.sectorLen = c.sectorLen
  size : c'.size = c.size
  canonical : c.flash.wf = true → c'.flash.wf = true

theorem sameDevice_destructive {m : Flash} (hm : c.flash.wf = true → m.wf = true) : SameDevice c (c.destructive d m) := by
  refine ⟨?_, ?_, fun hc => destructive_wf d hc (hm hc)⟩ <;> (unfold destructive; split <;> rfl)

theorem sameDevice_polled : SameDevice c c.polled := by
  refine ⟨?_, ?_, fun hc => by rwa [polled_flash]⟩ <;> (unfold polled; split; rfl; split <;> rfl)

theorem sameDevice_serve (f : Bytes) : SameDevice c (c.serve d f).2 := by
  have hself : SameDevice c c := ⟨rfl, rfl, id⟩
  unfold serve
  split
  · exact hself
  · exact sameDevice_polled
  · exact sameDevice_polled
  · split
    · exact ⟨rfl, rfl, id⟩
    · exact hself
  · exact sameDevice_destructive d fun hc => programmed_wf d hc _ _
  · exact sameDevice_destructive d fun hc => unitErased_wf hc _ _
  · split
    · exact sameDevice_destructive d fun hc => c.strayed_wf d hc
    · exact sameDevice_destructive d fun hc => unitErased_wf hc _ _
  · exact sameDevice_destructive d fun _ => c.flash.eraseAll_wf
  · exact ⟨rfl, rfl, fun hc => afterRead_wf d hc _ _⟩
  · exact hself
  · exact hself

end Chip

/-! ### What PROGRAM leaves in the array (R64, R68, R69) -/

/-- The array begins with the bytes `p`. -/
def Flash.Holds (m : Flash) (p : Bytes) : Prop := ∀ k v, p[k]? = some v → m.read k = some v

/-- The bytes from address `a` up to `b` are erased. -/
def Flash.Blank (m : Flash) (a b : Nat) : Prop := ∀ k, a ≤ k → k < b → m.read k = some 0xFF#8

theorem Flash.holds_nil (m : Flash) : m.Holds [] := fun _ _ h => by simp at h

theorem Flash.Blank.mono {m : Flash} {a b a' b' : Nat} (h : m.Blank a b) (ha : a ≤ a') (hb : b' ≤ b) : m.Blank a' b' :=
  fun k h1 h2 => h k (ha.trans h1) (lt_of_lt_of_le h2 hb)

theorem Flash.blank_eraseAll (m : Flash) (a b : Nat) : m.eraseAll.Blank a b := fun k _ _ => m.read_eraseAll k

theorem Flash.blank_empty (m : Flash) (a : Nat) : m.Blank a a := fun _ h1 h2 => absurd h2 (Nat.not_lt.mpr h1)

namespace Chip
variable {c : Chip} (dr : Draws)

/-- An erase of the sector behind the erased ones moves their end on (R68, R123). -/
theorem blank_unitErased {a n l : Nat} (hc : c.flash.wf = true) (hn : 0 < n) (ha : a % n = 0) (hl : l ≤ c.size)
    (h : c.flash.Blank 0 (min a l)) : (c.unitErased a n).Blank 0 (min (a + n) l) := by
  intro k _ hk
  rw [read_unitErased hc hn]
  split
  next => rfl
  next hout =>
    refine h k (Nat.zero_le k) (lt_min (Nat.not_le.mp fun hak => hout ⟨?_, by omega⟩) (by omega))
    have hdiv : a / n * n = a := Nat.div_mul_cancel (Nat.dvd_of_mod_eq_zero ha)
    exact ((inBlock_iff hn k (a / n)).mp (by omega)).symm

/-- A page programmed behind the earlier ones, into erased bytes, becomes the image's (R69, R125). -/
theorem holds_programmed {a : Nat} {d : Bytes} (hc : c.flash.wf = true) (hl : d.length ≤ c.size)
    (hold : c.flash.Holds (d.take a)) (hblank : c.flash.Blank a d.length) :
    (c.programmed dr a (pageSlice d a)).Holds (d.take (a + pageLen)) ∧
      (c.programmed dr a (pageSlice d a)).Blank (a + pageLen) d.length := by
  have hlen : (pageSlice d a).length = min pageLen (d.length - a) := by simp [pageSlice_eq]
  refine ⟨fun k v hv => ?_, fun k h1 h2 => ?_⟩
  · obtain ⟨hk, hv⟩ : k < a + pageLen ∧ d[k]? = some v := by simpa [List.getElem?_take] using hv
    obtain ⟨hkd, -⟩ := List.getElem?_eq_some_iff.mp hv
    by_cases hka : k < a
    · rw [read_programmed_outside dr hc (.inl hka)]
      exact hold k v (by simpa [hka] using hv)
    · obtain ⟨j, rfl⟩ := Nat.exists_eq_add_of_le (Nat.not_lt.mp hka)
      have hj : (pageSlice d a).getD j 0#8 = v := by
        have hjp : j < pageLen := by omega
        simp [pageSlice_eq, hjp, hv]
      rw [read_programmed dr hc (by omega) (by omega) (hblank (a + j) (by omega) hkd), hj]
      exact congrArg some (BitVec.allOnes_and (x := v))
  · rw [read_programmed_outside dr hc (.inr (by omega))]
    exact hblank k (by omega) h2

/-- A read finds the image's bytes (R70). -/
theorem readBytes_of_holds {d : Bytes} {a n : Nat} (hold : c.flash.Holds d) (hl : d.length ≤ c.size) (h : a + n ≤ d.length) :
    (List.range n).map (fun k => c.byteAt dr k (a + k)) = (d.drop a).take n := by
  refine List.ext_getElem (by simp; omega) fun k h1 h2 => ?_
  have hk : k < n := by simpa using h1
  simp only [List.getElem_map, List.getElem_range, List.getElem_take, List.getElem_drop]
  exact byteAt_of_read dr k (by omega) (hold _ _ (List.getElem?_eq_getElem _))

/-- Behind the image's bytes before it the data of a chunk's answer are the next ones (R74, R129). -/
theorem take_append_answer {d : Bytes} {a n : Nat} (hold : c.flash.Holds d) (hl : d.length ≤ c.size)
    (h : a + n ≤ d.length) :
    d.take a ++ chunkData [dr.take 0 4 ++ (List.range n).map (fun k => c.byteAt dr k (a + k))] = d.take (a + n) := by
  rw [readBytes_of_holds dr hold hl h, List.take_add]
  simp [chunkData, codecDecode]

/-- A read leaves them (R70). -/
theorem holds_afterRead {d : Bytes} (hc : c.flash.wf = true) (hold : c.flash.Holds d) (a n : Nat) :
    (c.afterRead dr a n).Holds d :=
  fun k v hv => read_afterRead dr hc a n (hold k v hv)

end Chip

/-! ### One step of the closed loop -/

theorem pendingFrame_of_ready {s : State} (h : s.seqState = .ready) : pendingFrame s = none := by
  simp [pendingFrame, h]

theorem pendingFrame_of_entry {s : State} (h : s.pos.line = .entry) : pendingFrame s = none := by
  unfold pendingFrame
  split
  · simp [lineInstr, h]
  · rfl

/-- The lines behind a wait's poll: on to what follows the wait when it reports idle (R110). -/
theorem advance_waitIdle {i : Instr} {s : State} (hl : s.pos.line = .waitIdle) (x b : Byte) (rest : List Answer) :
    advance i (s.received (pollInstr s.geom) (pollFrame s.geom.busy) [x, b] rest) =
      if checkBusy s.geom.busy b = .idle then afterIdle i (s.polled x b rest) else s.polled x b rest := by
  simp only [advance, State.received_pos, hl, afterWaitPoll, afterPoll_received]
  rfl

namespace System
variable {y z : System} {dr : Draws}

/-- Where no frame is pending the block steps alone. -/
theorem step_silent (hp : pendingFrame y.block = none) (h : y.step dr = .next z) :
    ∃ t, Machine.step y.block = .next t ∧ z = ⟨t, y.chip⟩ := by
  simp only [System.step, hp] at h
  split at h <;> cases h
  next t ht => exact ⟨t, ht, rfl⟩

/-- A pending frame is served, and the block steps over the answer. -/
theorem step_served {f : Bytes} (hp : pendingFrame y.block = some f) (h : y.step dr = .next z) :
    ∃ t, Machine.step { y.block with answers := [.bytes (y.chip.serve dr f).1] } = .next t ∧
      z = ⟨t, (y.chip.serve dr f).2⟩ := by
  simp only [System.step, hp] at h
  split at h <;> cases h
  next t ht => exact ⟨t, ht, rfl⟩

/-- At a frame line the chip's answer has the frame's length, so that the request's lines go on. -/
theorem step_frame {i : Instr} (hi : Inv y.block) (hx : y.block.seqState = .exec) (hd : decodeRequest y.block.req = .ok i)
    (hl : y.block.pos.line ≠ .entry) (h : y.step dr = .next z) :
    ∃ w f, AtFrame i w f y.block ∧ decodeFrame f = .ok w ∧
      z = ⟨advance i (y.block.received w f (y.chip.serve dr f).1 []), (y.chip.serve dr f).2⟩ := by
  have hpend : pendingFrame y.block = (lineInstr i y.block).bind encodeFrame := by simp only [pendingFrame, hx, hd]
  cases hp : pendingFrame y.block with
  | none =>
    obtain ⟨t, ht, -⟩ := step_silent hp h
    obtain ⟨-, ⟨hr, -⟩ | ⟨-, e, he, -⟩ | ⟨-, -, -, he, -⟩ | ⟨-, j, w, u, hj, -, hw, hu, -⟩⟩ := step_cases ht
    · cases hx.symm.trans hr
    · cases hd.symm.trans he
    · exact absurd he hl
    · obtain rfl : i = j := Except.ok.inj (hd.symm.trans hj)
      obtain ⟨f, hf⟩ := encodeFrame_of_exec (lineInstr_isWire hw) hu
      simp [hpend, hw, hf] at hp
  | some f =>
    obtain ⟨w, hw, hf⟩ := Option.bind_eq_some_iff.mp (hpend.symm.trans hp)
    have hat : AtFrame i w f y.block := ⟨hx, hd, hl, hw, hf⟩
    have hdec := hat.decodes hi
    obtain ⟨t, ht, rfl⟩ := step_served hp h
    rw [step_received [] ⟨hi.config, hx, hd⟩ hl hw hf (y.chip.serve_length dr hdec)] at ht
    cases ht
    exact ⟨w, f, hat, hdec, rfl⟩

/-- At a wait the status frame is answered, and the request goes on exactly when the chip is idle (R66, R110). -/
theorem step_wait {i : Instr} (hi : Inv y.block) (hx : y.block.seqState = .exec) (hd : decodeRequest y.block.req = .ok i)
    (hl : y.block.pos.line = .waitIdle) (h : y.step dr = .next z) :
    ∃ x b, z =
      ⟨if y.chip.busyLeft = 0 then afterIdle i (y.block.polled x b []) else y.block.polled x b [], y.chip.polled⟩ := by
  obtain ⟨w, f, hat, -, rfl⟩ := step_frame hi hx hd (by simp [hl]) h
  obtain rfl : w = pollInstr y.block.geom := eq_pollInstr_of_line hat.instr (.inr hl)
  obtain rfl : pollFrame y.block.geom.busy = f := Option.some.inj ((encodeFrame_pollInstr y.block.geom).symm.trans hat.frame)
  rw [Chip.serve_pollFrame, advance_waitIdle hl, Chip.checkBusy_pollByte]
  refine ⟨_, _, congrArg (System.mk · _) (if_congr ?_ rfl rfl)⟩
  by_cases hb : y.chip.busyLeft = 0 <;> simp [hb, Nat.pos_iff_ne_zero]

/-- What every step of the closed loop keeps holds at the end of a run. -/
theorem run_keeps {P : System → Prop} (hstep : ∀ {y z : System} {d : Draws}, P y → y.step d = .next z → P z)
    {ds : List Draws} (hy : P y) (h : y.run ds = .next z) : P z := by
  induction ds generalizing y with
  | nil => cases h; exact hy
  | cons d ds ih =>
    simp only [System.run] at h
    split at h
    next u hu => exact ih (hstep hy hu) h
    next => cases h
    next => cases h

/-- A resolved block in a state that meets the invariant, and a chip of its sector length on which the image `d` fits. -/
structure Fits (d : Bytes) (y : System) : Prop where
  inv : Inv y.block
  resolved : y.block.geom.valid = true
  unit : y.chip.sectorLen = y.block.geom.sectorLen.toNat
  canonical : y.chip.flash.wf = true
  image : d.length ≤ addrLimit
  inside : d.length ≤ y.chip.size

theorem Fits.sector_ne_zero {d : Bytes} (hy : Fits d y) : y.block.geom.sectorLen.toNat ≠ 0 := by
  obtain ⟨hs, -⟩ := (geomLegal_iff y.block).mp (hy.inv.geometry hy.resolved)
  exact hs

theorem Fits.step {d : Bytes} (hy : Fits d y) (h : y.step dr = .next z) : Fits d z := by
  have hkeep {s t : State} {c : Chip} (hs : Inv s) (hg : s.geom = y.block.geom) (ht : Machine.step s = .next t)
      (hc : Chip.SameDevice y.chip c) : Fits d ⟨t, c⟩ := by
    obtain ⟨-, hgeom, -⟩ := geometryImmutable s t hs (hg ▸ hy.resolved) ht
    rw [hg] at hgeom
    exact ⟨stepKeepsInvariant s t hs ht, hgeom ▸ hy.resolved, hc.sectorLen.trans (hgeom ▸ hy.unit),
      hc.canonical hy.canonical, hy.image, hc.size ▸ hy.inside⟩
  cases hp : pendingFrame y.block with
  | none =>
    obtain ⟨t, ht, rfl⟩ := step_silent hp h
    exact hkeep hy.inv rfl ht ⟨rfl, rfl, id⟩
  | some f =>
    obtain ⟨t, ht, rfl⟩ := step_served hp h
    exact hkeep (hy.inv.withChannels hy.inv.held [.bytes (y.chip.serve dr f).1] y.block.responses) rfl ht
      (Chip.sameDevice_serve dr f)

end System

/-! ### PROGRAM, then VERIFY, stage by stage -/

/-- PROGRAM of the bytes `d`, as the host hands it over (R79). -/
def programRequest (d : Bytes) : Request := ⟨0x9#4, 0#32, 0#32, d⟩

/-- VERIFY of the bytes `d` (R79). -/
def verifyRequest (d : Bytes) : Request := ⟨0xA#4, 0#32, 0#32, d⟩

/-- In READY the host still holds `q`, and has the responses `rs`. -/
structure Awaits (q : List Request) (rs : List Response) (s : State) : Prop where
  ready : s.seqState = .ready
  held : s.hostQ = q
  given : s.responses = rs

/-- In EXEC of the request `r` the host still holds `q`, and has the responses `rs`. -/
structure Serves (r : Request) (q : List Request) (rs : List Response) (s : State) : Prop where
  executing : s.seqState = .exec
  latched : s.req = r
  held : s.hostQ = q
  given : s.responses = rs

theorem Serves.decodesProgram {d : Bytes} {q : List Request} {rs : List Response} {s : State}
    (h : Serves (programRequest d) q rs s) : decodeRequest s.req = .ok (.program d) := by
  rw [h.latched]
  rfl

theorem Serves.decodesVerify {d : Bytes} {q : List Request} {rs : List Response} {s : State}
    (h : Serves (verifyRequest d) q rs s) : decodeRequest s.req = .ok (.verify d) := by
  rw [h.latched]
  rfl

theorem Serves.respond {r : Request} {q : List Request} {rs : List Response} {s : State} (h : Serves r q rs s) (f : Fields) :
    Awaits q (rs ++ [⟨.ok, f⟩]) (respond f s) :=
  ⟨rfl, h.held, congrArg (· ++ [(⟨.ok, f⟩ : Response)]) h.given⟩

theorem Awaits.accepts {r : Request} {q : List Request} {rs : List Response} {s t : State} (h : Awaits (r :: q) rs s)
    (ht : step s = .next t) : Serves r q rs t ∧ t.pos.line = .entry := by
  obtain rfl : t = s.accept r q := by rw [step_ready h.ready ht, acceptStep, h.held]
  exact ⟨⟨rfl, rfl, rfl, h.given⟩, rfl⟩

/-- What PROGRAM's write steps have left in the array when the one for address `a` is at hand (R122). -/
def Flash.Staged (m : Flash) (d : Bytes) (a : Nat) : Phase → Prop
  | .single => False
  | .erase => m.Blank 0 (min a d.length)
  | .program => m.Holds (d.take a) ∧ m.Blank a d.length

/-- What the line of a write step says of the chip: idle behind the wait, WEL set behind WREN (R66, R67). -/
def Chip.Readied (c : Chip) : Line → Prop
  | .sendWren => c.busyLeft = 0
  | .destructive => c.busyLeft = 0 ∧ c.wel = true
  | .entry | .sendRdid | .pollOnce | .waitIdle | .sendRead => True

/-- The stages of PROGRAM and VERIFY of the bytes `d`, the host having had the responses `rs` before. -/
inductive Stage (d : Bytes) (rs : List Response) (y : System) : Prop where
  | held (h : Awaits [programRequest d, verifyRequest d] rs y.block)
  | begun (h : Serves (programRequest d) [verifyRequest d] rs y.block) (hl : y.block.pos.line = .entry)
  | writing (h : Serves (programRequest d) [verifyRequest d] rs y.block) (hl : y.block.pos.line ≠ .entry)
      (hm : y.chip.flash.Staged d y.block.work.a y.block.pos.phase) (hc : y.chip.Readied y.block.pos.line)
  | programmed (h : Awaits [verifyRequest d] (rs ++ [⟨.ok, .none⟩]) y.block) (hm : y.chip.flash.Holds d)
  | checking (h : Serves (verifyRequest d) [] (rs ++ [⟨.ok, .none⟩]) y.block) (hl : y.block.pos.line = .entry)
      (hm : y.chip.flash.Holds d)
  | reading (h : Serves (verifyRequest d) [] (rs ++ [⟨.ok, .none⟩]) y.block) (hl : y.block.pos.line ≠ .entry)
      (hm : y.chip.flash.Holds d)
      (hb : y.block.pos.line = .sendRead → y.block.rbuf = d.take (chunkOff y.block.cfg y.block.work.i))
  | verified (h : Awaits [] (rs ++ [⟨.ok, .none⟩] ++ [⟨.ok, .verify none⟩]) y.block)

section Stages
variable {d : Bytes} {rs : List Response} {y z : System} {dr : Draws} {s : State} {c : Chip}

/-! ### PROGRAM -/

/-- The program phase begins on erased bytes; without a page the image is empty (R125). -/
theorem stage_startProgramPhase (h : Serves (programRequest d) [verifyRequest d] rs s) (hm : c.flash.Blank 0 d.length) :
    Stage d rs ⟨startProgramPhase d.length s, c⟩ := by
  unfold startProgramPhase
  split
  next h0 =>
    have hnil : d.length = 0 := by
      by_contra hne
      exact absurd h0 (ceilDiv_pos (by decide) (Nat.pos_of_ne_zero hne)).ne'
    obtain rfl := List.length_eq_zero_iff.mp hnil
    exact .programmed (h.respond .none) c.flash.holds_nil
  next =>
    refine .writing ⟨h.executing, h.latched, h.held, h.given⟩ Line.noConfusion ⟨?_, ?_⟩ trivial
    · simpa [pageAddr] using c.flash.holds_nil
    · exact hm.mono (Nat.zero_le _) le_rfl

/-- The erase phase begins with nothing erased (R123, R124). -/
theorem stage_startErasePhase (h : Serves (programRequest d) [verifyRequest d] rs s) (hs : s.geom.sectorLen.toNat ≠ 0) :
    Stage d rs ⟨startErasePhase d.length s, c⟩ := by
  unfold startErasePhase
  split
  next h0 =>
    have hnil : d.length = 0 := by
      by_contra hne
      exact eraseSteps_ne_zero hs hne h0
    exact stage_startProgramPhase h (hnil ▸ c.flash.blank_empty 0)
  next =>
    refine .writing ⟨h.executing, h.latched, h.held, h.given⟩ Line.noConfusion ?_ trivial
    simpa [Flash.Staged, eraseAddr] using c.flash.blank_empty 0

/-- PROGRAM's checks pass (R122). -/
theorem Stage.step_begun (hy : y.Fits d) (h : Serves (programRequest d) [verifyRequest d] rs y.block)
    (hl : y.block.pos.line = .entry) (hz : y.step dr = .next z) : Stage d rs z := by
  obtain ⟨t, ht, rfl⟩ := System.step_silent (pendingFrame_of_entry hl) hz
  have hd := h.decodesProgram
  rw [step_entry hy.inv.config h.executing hd hl] at ht
  cases (checked_of_pass _ hy.resolved (decide_eq_true hy.image : imageOk d = true)).symm.trans ht
  exact stage_startErasePhase h hy.sector_ne_zero

/-- Behind an erase frame: the next erase step, or the first page (R122, R123). -/
theorem stage_afterErase (h : Serves (programRequest d) [verifyRequest d] rs s) (hph : s.pos.phase = .erase)
    (hnext : c.flash.Blank 0 (min (eraseAddr s.geom (s.work.i + 1)) d.length))
    (hlast : ¬ s.work.i + 1 < s.work.n → c.flash.Blank 0 d.length) :
    Stage d rs ⟨afterDestructive (.program d) s, c⟩ := by
  simp only [afterDestructive, hph]
  split
  next => exact .writing ⟨h.executing, h.latched, h.held, h.given⟩ Line.noConfusion hnext trivial
  next hn => exact stage_startProgramPhase h (hlast hn)

/-- Behind a page: the next page, or the response (R125, R128). -/
theorem stage_afterPage (h : Serves (programRequest d) [verifyRequest d] rs s) (hph : s.pos.phase = .program)
    (hn : s.work.n = pageCount d.length) (hold : c.flash.Holds (d.take (pageAddr (s.work.i + 1))))
    (hblank : c.flash.Blank (pageAddr (s.work.i + 1)) d.length) : Stage d rs ⟨afterDestructive (.program d) s, c⟩ := by
  simp only [afterDestructive, hph]
  split
  next => exact .writing ⟨h.executing, h.latched, h.held, h.given⟩ Line.noConfusion ⟨hold, hblank⟩ trivial
  next hlast =>
    have hend : d.length ≤ pageAddr (s.work.i + 1) :=
      (le_ceilDiv_mul (by decide) d.length).trans (Nat.mul_le_mul_right _ (hn.symm.trans_le (Nat.le_of_not_lt hlast)))
    rw [List.take_of_length_le hend] at hold
    exact .programmed (h.respond .none) hold

/-- An erase step moves the end of the erased bytes on by a sector, the last one to the end of the image (R123, R124, R127). -/
theorem System.Fits.erased {w : Instr} {f : Bytes} (hy : y.Fits d) (hloop : loopOk (.program d) y.block = true)
    (hph : y.block.pos.phase = .erase) (hw : destructiveInstr (.program d) y.block = some w) (hdec : decodeFrame f = .ok w)
    (hc : y.chip.busyLeft = 0 ∧ y.chip.wel = true) (hm : y.chip.flash.Blank 0 (min y.block.work.a d.length)) :
    (y.chip.serve dr f).2.flash.Blank 0 (min (eraseAddr y.block.geom (y.block.work.i + 1)) d.length) ∧
      (¬ y.block.work.i + 1 < y.block.work.n → (y.chip.serve dr f).2.flash.Blank 0 d.length) := by
  obtain ⟨-, hi, hn, ha⟩ := (loopOk_program_erase hph).mp hloop
  cases hst : y.block.cfg.eraseStrategy with
  | bulk =>
    obtain rfl : Instr.be = w := by simpa [destructiveInstr, hph, hst] using hw
    rw [Chip.serve_be_of_decode _ _ hdec, Chip.destructive_enabled dr _ hc]
    exact ⟨y.chip.flash.blank_eraseAll _ _, fun _ => y.chip.flash.blank_eraseAll _ _⟩
  | sector =>
    obtain rfl : Instr.se y.block.work.a = w := by simpa [destructiveInstr, hph, hst] using hw
    rw [Chip.serve_se _ _ hdec, Chip.destructive_enabled dr _ hc, hy.unit]
    have hpos : 0 < y.block.geom.sectorLen.toNat := Nat.pos_of_ne_zero hy.sector_ne_zero
    have hnext : eraseAddr y.block.geom (y.block.work.i + 1) = y.block.work.a + y.block.geom.sectorLen.toNat :=
      (Nat.succ_mul ..).trans (congrArg (· + _) ha.symm)
    have hblank := Chip.blank_unitErased hy.canonical hpos (ha ▸ Nat.mul_mod_left ..) hy.inside hm
    rw [← hnext] at hblank
    refine ⟨hblank, fun hlast => hblank.mono le_rfl (le_min ?_ le_rfl)⟩
    have hcount : y.block.work.n = sectorCount d.length y.block.geom := by rw [hn, eraseSteps, hst]
    calc d.length ≤ sectorCount d.length y.block.geom * y.block.geom.sectorLen.toNat := le_ceilDiv_mul hpos _
      _ ≤ eraseAddr y.block.geom (y.block.work.i + 1) := Nat.mul_le_mul_right _ (by omega)

section Writing
variable (hy : y.Fits d) (h : Serves (programRequest d) [verifyRequest d] rs y.block)
include hy h

/-- The wait of a write step: behind it the chip is idle (R66, R110). -/
theorem Stage.step_writeWait (hl : y.block.pos.line = .waitIdle)
    (hm : y.chip.flash.Staged d y.block.work.a y.block.pos.phase) (hz : y.step dr = .next z) : Stage d rs z := by
  obtain ⟨x, b, rfl⟩ := System.step_wait hy.inv h.executing h.decodesProgram hl hz
  have hm' : y.chip.polled.flash.Staged d y.block.work.a y.block.pos.phase := by rwa [Chip.polled_flash]
  split
  next hb =>
    exact .writing ⟨h.executing, h.latched, h.held, h.given⟩ Line.noConfusion hm' (Chip.polled_busyLeft hb)
  next =>
    exact .writing ⟨h.executing, h.latched, h.held, h.given⟩ (by simp [State.polled, hl]) hm'
      (by simp [State.polled, hl, Chip.Readied])

/-- WREN sets WEL on the idle chip (R67). -/
theorem Stage.step_writeEnable (hl : y.block.pos.line = .sendWren)
    (hm : y.chip.flash.Staged d y.block.work.a y.block.pos.phase) (hc : y.chip.busyLeft = 0) (hz : y.step dr = .next z) :
    Stage d rs z := by
  have hd := h.decodesProgram
  obtain ⟨w, f, hat, -, rfl⟩ := System.step_frame hy.inv h.executing hd (by simp [hl]) hz
  obtain rfl : Instr.wren = w := by simpa [lineInstr, hl, waitRole] using hat.instr
  obtain rfl : [opWREN] = f := Option.some.inj hat.frame
  rw [Chip.serve_wren, if_pos hc, advance, State.received_pos, hl]
  exact .writing ⟨h.executing, h.latched, h.held, h.given⟩ Line.noConfusion hm ⟨hc, rfl⟩

/-- The destructive frame of a write step acts (R68, R69). -/
theorem Stage.step_written (hl : y.block.pos.line = .destructive)
    (hm : y.chip.flash.Staged d y.block.work.a y.block.pos.phase) (hc : y.chip.busyLeft = 0 ∧ y.chip.wel = true)
    (hz : y.step dr = .next z) : Stage d rs z := by
  have hd := h.decodesProgram
  obtain ⟨w, f, hat, hdec, rfl⟩ := System.step_frame hy.inv h.executing hd (by simp [hl]) hz
  have hw : destructiveInstr (.program d) y.block = some w := by simpa [lineInstr, hl] using hat.instr
  obtain ⟨-, -, hloop, -⟩ := (positionOk_destructive hd hl).mp (hy.inv.position h.executing)
  have hs : Serves (programRequest d) [verifyRequest d] rs (y.block.received w f (y.chip.serve dr f).1 []) :=
    ⟨h.executing, h.latched, h.held, h.given⟩
  rw [advance, State.received_pos, hl]
  cases hph : y.block.pos.phase with
  | single => rw [hph] at hm; exact hm.elim
  | erase =>
    rw [hph] at hm
    obtain ⟨hnext, hlast⟩ := hy.erased hloop hph hw hdec hc hm
    exact stage_afterErase hs hph hnext hlast
  | program =>
    rw [hph] at hm
    obtain ⟨-, -, hn, ha⟩ := (loopOk_program_page hph).mp hloop
    obtain rfl : Instr.pp y.block.work.a (pageSlice d y.block.work.a) = w := by simpa [destructiveInstr, hph] using hw
    obtain ⟨hold, hblank⟩ := Chip.holds_programmed dr hy.canonical hy.inside hm.1 hm.2
    have hnext : y.block.work.a + pageLen = pageAddr (y.block.work.i + 1) := by rw [ha, pageAddr, pageAddr, Nat.succ_mul]
    rw [hnext] at hold hblank
    refine stage_afterPage hs hph hn ?_ ?_ <;> rwa [Chip.serve_pp _ _ hdec, Chip.destructive_enabled dr _ hc]

/-- The lines of a write step, one after the other (R117). -/
theorem Stage.step_writing (hl : y.block.pos.line ≠ .entry) (hm : y.chip.flash.Staged d y.block.work.a y.block.pos.phase)
    (hc : y.chip.Readied y.block.pos.line) (hz : y.step dr = .next z) : Stage d rs z := by
  have hd := h.decodesProgram
  obtain ⟨w, f, hat, -⟩ := System.step_frame hy.inv h.executing hd hl hz
  obtain ⟨-, hn, -⟩ | ⟨-, hn, -⟩ | ⟨hl, -⟩ | ⟨hl, -⟩ | ⟨hl, -⟩ | ⟨-, hn, -⟩ := lineInstr_cases hat.instr
  · cases hn
  · cases hn
  · exact Stage.step_writeWait hy h hl hm hz
  · rw [hl] at hc; exact Stage.step_writeEnable hy h hl hm hc hz
  · rw [hl] at hc; exact Stage.step_written hy h hl hm hc hz
  · cases hn

end Writing

/-! ### VERIFY -/

/-- RBUF holds the reference, and VERIFY reports the match (R132). -/
theorem stage_finishVerify (h : Serves (verifyRequest d) [] (rs ++ [⟨.ok, .none⟩]) s) (hb : s.rbuf = d) :
    Stage d rs ⟨finishVerify d s, c⟩ := by
  rw [finishVerify_eq (congrArg List.length hb), if_pos hb]
  exact .verified ⟨rfl, h.held, congrArg (· ++ [(⟨.ok, .verify none⟩ : Response)]) h.given⟩

theorem stage_beginChunks (h : Serves (verifyRequest d) [] (rs ++ [⟨.ok, .none⟩]) s) (hm : c.flash.Holds d)
    (hi : s.work.i = 0) : Stage d rs ⟨beginChunks s, c⟩ := by
  refine .reading ⟨h.executing, h.latched, h.held, h.given⟩ Line.noConfusion hm fun _ => ?_
  simp [chunkOff, hi]

section Reading
variable (hy : y.Fits d) (h : Serves (verifyRequest d) [] (rs ++ [⟨.ok, .none⟩]) y.block) (hm : y.chip.flash.Holds d)
include hy h hm

/-- VERIFY's checks pass (R132). -/
theorem Stage.step_checking (hl : y.block.pos.line = .entry) (hz : y.step dr = .next z) : Stage d rs z := by
  obtain ⟨t, ht, rfl⟩ := System.step_silent (pendingFrame_of_entry hl) hz
  have hs : Serves (verifyRequest d) [] (rs ++ [⟨.ok, .none⟩]) (y.block.verifyCleared (.verify d)) :=
    ⟨h.executing, h.latched, h.held, h.given⟩
  rw [step_entry hy.inv.config h.executing h.decodesVerify hl, exec_verify hy.resolved hy.image] at ht
  split at ht <;> cases ht
  next h0 =>
    exact stage_finishVerify (s := (y.block.verifyCleared (.verify d)).setRbuf [])
      ⟨hs.executing, hs.latched, hs.held, hs.given⟩ (List.length_eq_zero_iff.mp h0).symm
  next h0 =>
    unfold startRead
    split
    · exact stage_beginChunks (s := (y.block.verifyCleared (.verify d)).setLoop 0 _ 0)
        ⟨hs.executing, hs.latched, hs.held, hs.given⟩ hm rfl
    · exact .reading ⟨hs.executing, hs.latched, hs.held, hs.given⟩ Line.noConfusion hm Line.noConfusion

/-- The wait of VERIFY leaves the array (R114). -/
theorem Stage.step_readWait (hl : y.block.pos.line = .waitIdle) (hz : y.step dr = .next z) : Stage d rs z := by
  have hd := h.decodesVerify
  obtain ⟨x, b, rfl⟩ := System.step_wait hy.inv h.executing hd hl hz
  have hm' : y.chip.polled.flash.Holds d := by rwa [Chip.polled_flash]
  obtain ⟨-, -, hloop⟩ := (positionOk_waitIdle hd hl).mp (hy.inv.position h.executing)
  obtain ⟨-, -, -, -, -, hi⟩ := (loopOk_read_wait (i := .verify d) rfl (by simp [hl])).mp hloop
  split
  · exact stage_beginChunks (s := y.block.polled x b []) ⟨h.executing, h.latched, h.held, h.given⟩ hm' hi
  · exact .reading ⟨h.executing, h.latched, h.held, h.given⟩ (by simp [State.polled, hl]) hm' (by simp [State.polled, hl])

/-- One chunk: RBUF goes on holding the image's first bytes, all of them at the end (R70, R129). -/
theorem Stage.step_chunk (hl : y.block.pos.line = .sendRead)
    (hb : y.block.rbuf = d.take (chunkOff y.block.cfg y.block.work.i)) (hz : y.step dr = .next z) : Stage d rs z := by
  have hd := h.decodesVerify
  have hc := readChunk_pos hy.inv.config
  obtain ⟨-, -, hloop, -⟩ := (positionOk_sendRead hd hl).mp (hy.inv.position h.executing)
  obtain ⟨-, -, ha, hn, hk, -⟩ := (loopOk_read_chunk (i := .verify d) rfl hl).mp hloop
  obtain ⟨w, f, hat, hdec, rfl⟩ := System.step_frame hy.inv h.executing hd (by simp [hl]) hz
  obtain rfl : chunkInstr y.block.cfg y.block.work.a d.length y.block.work.i = w := by
    simpa [lineInstr, hl, waitRole, readLen] using hat.instr
  obtain ⟨-, -, hin⟩ := chunk_inside hc (hn ▸ hk)
  simp only [readAddr, readLen] at ha hn hin
  rw [advance_sendRead _ hl, Chip.serve_readData _ _ hdec, ha, Nat.zero_add]
  have hm' := Chip.holds_afterRead dr hy.canonical hm (chunkOff y.block.cfg y.block.work.i)
    (chunkLen y.block.cfg d.length y.block.work.i)
  have hread := Chip.take_append_answer dr hm hy.inside hin
  rw [← hb] at hread
  split
  next hmore =>
    refine .reading ⟨h.executing, h.latched, h.held, h.given⟩ (by simp [State.chunksRead, hl]) hm' fun _ => ?_
    exact hread.trans (congrArg (d.take ·) (chunkOff_succ hc (hn ▸ hmore)))
  next hlast =>
    refine stage_finishVerify (s := y.block.chunksRead _ _ _ _) ⟨h.executing, h.latched, h.held, h.given⟩ (hread.trans ?_)
    exact List.take_of_length_le (le_chunkOff_add_chunkLen hc (hn ▸ hlast))

/-- The wait and the chunks of VERIFY (R114, R129). -/
theorem Stage.step_reading (hl : y.block.pos.line ≠ .entry)
    (hb : y.block.pos.line = .sendRead → y.block.rbuf = d.take (chunkOff y.block.cfg y.block.work.i))
    (hz : y.step dr = .next z) : Stage d rs z := by
  have hd := h.decodesVerify
  obtain ⟨w, f, hat, -⟩ := System.step_frame hy.inv h.executing hd hl hz
  obtain ⟨-, hn, -⟩ | ⟨-, hn, -⟩ | ⟨hl, -⟩ | ⟨-, hn, -⟩ | ⟨-, hn⟩ | ⟨hl, -⟩ := lineInstr_cases hat.instr
  · cases hn
  · cases hn
  · exact Stage.step_readWait hy h hm hl hz
  · cases hn
  · cases hn
  · exact Stage.step_chunk hy h hm hl (hb hl) hz

end Reading

/-- A step of the closed loop leads from stage to stage. -/
theorem Stage.step (hy : y.Fits d) (h : Stage d rs y) (hz : y.step dr = .next z) : Stage d rs z := by
  cases h with
  | held h =>
    obtain ⟨t, ht, rfl⟩ := System.step_silent (pendingFrame_of_ready h.ready) hz
    obtain ⟨hs, hl⟩ := h.accepts ht
    exact .begun hs hl
  | begun h hl => exact Stage.step_begun hy h hl hz
  | writing h hl hm hc => exact Stage.step_writing hy h hl hm hc hz
  | programmed h hm =>
    obtain ⟨t, ht, rfl⟩ := System.step_silent (pendingFrame_of_ready h.ready) hz
    obtain ⟨hs, hl⟩ := h.accepts ht
    exact .checking hs hl hm
  | checking h hl hm => exact Stage.step_checking hy h hm hl hz
  | reading h hl hm hb => exact Stage.step_reading hy h hm hl hb hz
  | verified h =>
    obtain ⟨t, ht, rfl⟩ := System.step_silent (pendingFrame_of_ready h.ready) hz
    obtain rfl : t = y.block := by rw [step_ready h.ready ht, acceptStep, h.held]
    exact .verified h

/-- Two responses more have come only when VERIFY has responded. -/
theorem Stage.responses {r1 r2 : Response} (h : Stage d rs y) (hr : y.block.responses = rs ++ [r1, r2]) :
    r1 = ⟨.ok, .none⟩ ∧ r2 = ⟨.ok, .verify none⟩ := by
  cases h with
  | held h => simp [h.given] at hr
  | begun h | writing h | programmed h | checking h | reading h => simp [h.given] at hr
  | verified h => simpa [h.given, eq_comm] using hr

end Stages
/-- Settles O60: the stages lead from the held requests to the two responses, whatever the chip draws. -/
theorem verifyAfterProgramMatches : Obligations.VerifyAfterProgramMatches := by
  intro y z d ds r1 r2 hi hr hg hwf hunit hlen hin hq hrun hresp
  have hstart : y.Fits d ∧ Stage d y.block.responses y := ⟨⟨hi, hg, hunit, hwf, hlen, hin⟩, .held ⟨hr, hq, rfl⟩⟩
  obtain ⟨-, hend⟩ := System.run_keeps (P := fun x => x.Fits d ∧ Stage d y.block.responses x)
    (fun hx hstep => ⟨hx.1.step hstep, hx.2.step hx.1 hstep⟩) hstart hrun
  exact hend.responses hresp

end Sys2Proof.Machine

/-! ## spec/60_exceptions.md: the error entry; which errors end a request, and when; under the invariant a step always goes on -/

namespace Sys2Proof.Machine

/-! ### The error entry (R147) -/

/-- Settles O19: the error entry's record, with each kind's own code. -/
theorem errorEntryWrites : Obligations.ErrorEntryWrites := by
  intro s e st h
  have hst : st = e.status := by
    simp only [List.mem_cons, Prod.mk.injEq, List.not_mem_nil, or_false] at h
    obtain ⟨rfl, rfl⟩ | ⟨rfl, rfl⟩ | ⟨rfl, rfl⟩ | ⟨rfl, rfl⟩ | ⟨rfl, rfl⟩ := h <;> rfl
  rw [raise_eq, errorEntry_eq, hst]

/-! ### A reserved KIND (R80, R139) -/

theorem decodeRequest_reserved {r : Request} (h : r.kind ∈ [0x0#4, 0xB#4, 0xC#4, 0xD#4, 0xE#4, 0xF#4]) :
    decodeRequest r = .error (.reservedKind r.kind) := by
  simp only [List.mem_cons, List.not_mem_nil, or_false] at h
  obtain hk | hk | hk | hk | hk | hk := h <;> simp [decodeRequest, hk]

/-- A latched request that does not decode ends with InvalidRequest, wherever the position stands. -/
theorem step_reserved {s : State} {e : Reject} (hc : s.cfg.wf = true) (hx : s.seqState = .exec)
    (hd : decodeRequest s.req = .error e) : step s = .next (errorEntry .invalidRequest s) := by
  simp [step, execStep, hc, hx, hd]

/-- Settles O8: a reserved KIND does not decode, and the error entry writes nothing else for it. -/
theorem reservedKindRejected : Obligations.ReservedKindRejected := by
  intro s hc hx hk
  rw [step_reserved hc hx (decodeRequest_reserved hk), errorEntry_eq]
  rfl

/-! ### A failed transfer (R143, R148) -/

/-- A wire command answered by `fail` or with another length raises TransportFailure. -/
theorem exec_failed {s : State} {w : Instr} {f : Bytes} {a : Answer} {rest : List Answer} (hw : w.isWire = true)
    (hf : encodeFrame w = some f) (ha : s.answers = a :: rest) (hn : ∀ r, a = .bytes r → r.length ≠ f.length) :
    exec w s = .next (errorEntry .transportFailure (s.assertCs.endXfer f a rest)) := by
  rw [exec_wire hw, hf]
  simp only [sendFrame, xfer_failed ha hn, raise_eq]

/-- A request that has ended runs no further line. -/
theorem afterFrame_ready (i : Instr) {s : State} (h : s.seqState = .ready) : afterFrame i s = s := if_pos (.inl h)

/-- Settles O15: the error entry leaves READY, so the lines after the frame do not run. -/
theorem failedTransferEndsRequest : Obligations.FailedTransferEndsRequest := by
  intro s i w f a rest hw hf ha hn
  have hx := exec_failed hw hf ha hn
  refine ⟨by rw [hx, errorEntry_eq]; rfl, fun h hl hi => ?_⟩
  rw [step_frame h.config h.executing h.request hl hi hx, afterFrame_ready i rfl, hx]

/-! ### Lines that end a request with OK only -/

/-- A response given between `s` and `t` has the status OK. -/
def RespondsOk (s t : State) : Prop := ∀ r : Response, t.responses = s.responses ++ [r] → r.status = .ok

theorem respondsOk_silent {s t : State} (h : t.responses = s.responses) : RespondsOk s t := by
  intro r hr
  simp [h] at hr

theorem respondsOk_finish {s t : State} (h : t.responses = s.responses) (f : Fields) : RespondsOk s (t.finish .ok f) := by
  intro r hr
  simp only [State.finish_responses, h, List.append_cancel_left_eq, List.cons.injEq, and_true] at hr
  rw [← hr]

theorem startProgramPhase_respondsOk (l : Nat) (s : State) : RespondsOk s (startProgramPhase l s) := by
  unfold startProgramPhase
  split
  · exact respondsOk_finish rfl .none
  · exact respondsOk_silent rfl

theorem startErasePhase_respondsOk (l : Nat) (s : State) : RespondsOk s (startErasePhase l s) := by
  unfold startErasePhase
  split
  · exact startProgramPhase_respondsOk l s
  · exact respondsOk_silent rfl

theorem startRead_respondsOk (a l : Nat) {s t : State} (h : t.responses = s.responses) : RespondsOk s (startRead a l t) := by
  unfold startRead
  split <;> exact respondsOk_silent h

theorem finishRead_respondsOk (i : Instr) {s t : State} (h : t.responses = s.responses) : RespondsOk s (finishRead i t) := by
  cases i with
  | read => exact respondsOk_finish h _
  | verify => exact respondsOk_finish (t := t.setVerify _) h _
  | _ => exact respondsOk_silent h

/-- The lines after an answered frame raise no error. -/
theorem AdvanceRun.respondsOk {i : Instr} {s t : State} (h : AdvanceRun i s t) : RespondsOk s t := by
  cases h with
  | identified => exact respondsOk_finish (t := s.identified) rfl _
  | polled | idleResponds => exact respondsOk_finish (t := afterPoll s) rfl _
  | written => exact respondsOk_finish rfl _
  | erased => exact startProgramPhase_respondsOk _ s
  | lastChunk => exact finishRead_respondsOk i rfl
  | pollsAgain | idleWrites | idleReads | writeEnabled | nextErase | nextPage | nextChunk => exact respondsOk_silent rfl

/-! ### The checks of a request (R140 to R142) -/

/-- The argument check each request makes (R118 to R122, R130, R132); the others make none. -/
def argumentsOk (g : GeomRegs) : Instr → Bool
  | .eraseSector a => eraseSectorOk a g
  | .eraseSubsector a => eraseSubsectorOk a g
  | .pageProgram a d => pageProgramOk a d
  | .read a l => readOk a l
  | .program d | .verify d => imageOk d
  | .rdid _ | .rdsr | .rfsr | .wren | .pp _ _ | .se _ | .sse _ | .be | .readData _ _ | .identify | .poll | .waitIdle
  | .eraseBulk => true

/-- The checks fail in the cases of R142's table and in no others. -/
theorem argumentsOk_eq_false_iff (g : GeomRegs) (i : Instr) : argumentsOk g i = false ↔ argumentInvalid g i := by
  cases i with
  | eraseSector | eraseSubsector | pageProgram | read | program | verify =>
    simp only [argumentsOk, argumentInvalid, eraseSectorOk, eraseSubsectorOk, pageProgramOk, readOk, imageOk, addrLimit,
      pageLen, Bool.and_eq_false_iff, decide_eq_false_iff_not, not_lt, not_le, ne_eq, not_not, or_assoc, Nat.reducePow]
  | _ => simp [argumentsOk, argumentInvalid]

/-- The first line of every request but IDENTIFY: NotResolved while the geometry is not resolved, InvalidArgument when the
arguments fail their check, else lines that raise no error. -/
theorem exec_checked {i : Instr} (hi : i.isWire = false) (hn : i ≠ .identify) (s : State) :
    ∃ t, RespondsOk s t ∧ exec i s =
      if s.geom.valid = false then raise .notResolved (s.verifyCleared i)
      else if argumentsOk s.geom i then .next t else raise .invalidArgument (s.verifyCleared i) := by
  cases i with
  | identify => exact absurd rfl hn
  | poll =>
    refine ⟨s.goto .pollOnce .single, respondsOk_silent rfl, ?_⟩
    cases hg : s.geom.valid <;> simp only [exec, execPoll, hg] <;> rfl
  | waitIdle =>
    refine ⟨s.goto .waitIdle .single, respondsOk_silent rfl, ?_⟩
    cases hg : s.geom.valid <;> simp only [exec, execWaitIdle, hg] <;> rfl
  | eraseSector a => exact ⟨startWriteStep .single 0 1 a.toNat s, respondsOk_silent rfl, rfl⟩
  | eraseSubsector a => exact ⟨startWriteStep .single 0 1 a.toNat s, respondsOk_silent rfl, rfl⟩
  | eraseBulk => exact ⟨startWriteStep .single 0 1 0 s, respondsOk_silent rfl, rfl⟩
  | pageProgram a d => exact ⟨startWriteStep .single 0 1 a.toNat s, respondsOk_silent rfl, rfl⟩
  | program d => exact ⟨startErasePhase d.length s, startErasePhase_respondsOk _ s, rfl⟩
  | read a l =>
    refine ⟨if l.toNat = 0 then respond (.read []) (s.setRbuf []) else startRead a.toNat l.toNat s, ?_, ?_⟩
    · split
      · exact respondsOk_finish (t := s.setRbuf []) rfl _
      · exact startRead_respondsOk _ _ rfl
    · rw [apply_ite Host.Outcome.next]; rfl
  | verify d =>
    refine ⟨if d.length = 0 then finishVerify d ((s.verifyCleared (.verify d)).setRbuf [])
      else startRead 0 d.length (s.verifyCleared (.verify d)), ?_, ?_⟩
    · split
      · exact finishRead_respondsOk (.verify d) (t := (s.verifyCleared (.verify d)).setRbuf []) rfl
      · exact startRead_respondsOk _ _ rfl
    · rw [apply_ite Host.Outcome.next]; rfl
  | _ => exact Bool.noConfusion hi

/-- The record of an error at a request's first line: VERIFY has cleared VERIFY_VALID, no other request has written anything. -/
theorem raise_verifyCleared {e : ErrKind} (he : e ≠ .transportFailure) (s : State) (i : Instr) :
    raise e (s.verifyCleared i) = .next
      { s with
        verify := { s.verify with valid := s.verify.valid && !i.clearsVerify }
        lastStatus := e.status
        responses := s.responses ++ [{ status := e.status, fields := .none }]
        seqState := .ready } := by
  rw [raise_eq, errorEntry_eq, if_neg he]
  cases hv : i.clearsVerify <;> simp [State.verifyCleared, hv, State.setVerify]

/-- Settles O20: every request but IDENTIFY looks at GEOM_VALID before its arguments. -/
theorem unresolvedRequestsRejected : Obligations.UnresolvedRequestsRejected := by
  intro s i hg hi hn
  obtain ⟨t, -, hx⟩ := exec_checked hi hn s
  rw [hx, if_pos hg]
  exact raise_verifyCleared (by decide) s i

theorem exec_identify_resolved {s : State} (hg : s.geom.valid = true) : exec .identify s = raise .invalidState s := if_pos hg

/-- Settles O21: IDENTIFY's one check. -/
theorem secondIdentifyRejected : Obligations.SecondIdentifyRejected := by
  intro s hg
  rw [exec_identify_resolved hg, raise_eq, errorEntry_eq]
  rfl

/-- Settles O22: past GEOM_VALID a request is rejected exactly when its arguments fail their check, IDENTIFY for another reason. -/
theorem invalidArgumentsRejected : Obligations.InvalidArgumentsRejected := by
  intro s i hg hi
  by_cases hn : i = .identify
  · subst hn
    refine ⟨False.elim, fun _ => ⟨_, exec_identify_resolved hg, fun r hr => ?_⟩⟩
    simp only [errorEntry_eq, List.append_cancel_left_eq, List.cons.injEq, and_true] at hr
    rw [← hr]
    decide
  · obtain ⟨t, hok, hx⟩ := exec_checked hi hn s
    rw [hx, if_neg (by simp [hg])]
    refine ⟨fun hinv => ?_, fun hvalid => ⟨t, ?_, fun r hr => by rw [hok r hr]; decide⟩⟩
    · rw [(argumentsOk_eq_false_iff s.geom i).mpr hinv]
      exact raise_verifyCleared (by decide) s i
    · rw [if_pos (Bool.eq_true_of_not_eq_false ((argumentsOk_eq_false_iff s.geom i).not.mpr hvalid))]

/-! ### When a request's errors come (R146) -/

/-- A response given at a frame line says OK, or that the frame failed. -/
theorem StepRun.status_of_frame {s t : State} {r : Response} (h : StepRun s t) (hr : t.responses = s.responses ++ [r])
    (hl : s.pos.line ≠ .entry) (hp : s.seqState = .exec → positionOk s = true) :
    r.status = .ok ∨ r.status = .transportFailure := by
  cases h with
  | waits => simp at hr
  | accepts => simp at hr
  | reserved hx hd => exact absurd ((positionOk_reserved hd).mp (hp hx)).1 hl
  | entry _ _ hentry => exact absurd hentry hl
  | unanswered => simp at hr
  | failed =>
    simp only [errorEntry_eq, State.endXfer_responses, State.assertCs_responses, List.append_cancel_left_eq, List.cons.injEq,
      and_true] at hr
    rw [← hr]
    exact .inr rfl
  | answered _ _ _ ha => exact .inl (ha.respondsOk r hr)

/-- At a request's first line no frame is sent. -/
theorem StepRun.silent_of_entry {s t : State} (h : StepRun s t) (hl : s.pos.line = .entry) :
    t.trace = s.trace ∧ t.answers = s.answers := by
  cases h with
  | waits | accepts => exact ⟨rfl, rfl⟩
  | reserved => simp [errorEntry_eq]
  | entry _ _ _ he => exact ⟨he.frame.trace, he.frame.answers⟩
  | unanswered hf | failed hf | answered hf => exact absurd hl hf.line

/-- Settles O23: a response comes from the first line, where no frame is sent, or from a frame line, where none of the early codes
can come. -/
theorem earlyErrorsSendNoFrame : Obligations.EarlyErrorsSendNoFrame := by
  intro s t r hi h hr
  have hrun := step_run h
  have hframe (hl : s.pos.line ≠ .entry) := hrun.status_of_frame hr hl hi.position
  refine ⟨fun hearly => ?_, hframe⟩
  have hl : s.pos.line = .entry := by
    by_contra hl
    obtain hs | hs := hframe hl <;> simp [hs] at hearly
  exact ⟨hl, hrun.silent_of_entry hl⟩

/-! ### A step always goes on (R86, R142) -/

/-- A write step has its destructive frame (R117 to R125). -/
theorem destructiveInstr_exists {i : Instr} {s : State} (hr : waitRole i = some .write) (hl : loopOk i s = true) :
    ∃ w, destructiveInstr i s = some w := by
  cases i with
  | eraseSector | eraseSubsector | eraseBulk | pageProgram => exact ⟨_, rfl⟩
  | program d =>
    cases hp : s.pos.phase with
    | single => simp [loopOk, hp] at hl
    | erase => cases hs : s.cfg.eraseStrategy <;> simp [destructiveInstr, hp, hs]
    | program => simp [destructiveInstr, hp]
  | _ => cases hr

/-- Under the invariant a frame of the latched request stands at every line but the first. -/
theorem Inv.atFrame {i : Instr} {s : State} (h : Inv s) (hx : s.seqState = .exec) (hd : decodeRequest s.req = .ok i)
    (hl : s.pos.line ≠ .entry) : ∃ w f, AtFrame i w f s := by
  have hp := h.position hx
  suffices hw : ∃ w f, lineInstr i s = some w ∧ encodeFrame w = some f by
    obtain ⟨w, f, hw, hf⟩ := hw
    exact ⟨w, f, hx, hd, hl, hw, hf⟩
  cases hline : s.pos.line with
  | entry => exact absurd hline hl
  | sendRdid =>
    obtain ⟨rfl, -⟩ := (positionOk_sendRdid hd hline).mp hp
    exact ⟨.rdid (3 + s.cfg.uidLen), _, by simp [lineInstr, hline], rfl⟩
  | pollOnce =>
    obtain ⟨rfl, -⟩ := (positionOk_pollOnce hd hline).mp hp
    exact ⟨pollInstr s.geom, _, by simp [lineInstr, hline], encodeFrame_pollInstr s.geom⟩
  | waitIdle =>
    obtain ⟨hr, -⟩ := (positionOk_waitIdle hd hline).mp hp
    exact ⟨pollInstr s.geom, _, by simp [lineInstr, hline, hr], encodeFrame_pollInstr s.geom⟩
  | sendWren =>
    obtain ⟨hr, -⟩ := (positionOk_sendWren hd hline).mp hp
    exact ⟨.wren, _, by simp [lineInstr, hline, hr], rfl⟩
  | destructive =>
    obtain ⟨hr, hg, hloop, -⟩ := (positionOk_destructive hd hline).mp hp
    obtain ⟨w, hw⟩ := destructiveInstr_exists hr hloop
    have hi : lineInstr i s = some w := by simpa [lineInstr, hline] using hw
    obtain ⟨hs, -⟩ := (geomLegal_iff s).mp (h.geometry hg)
    obtain ⟨f, hf, -⟩ := decodeFrame_encodeFrame (lineInstr_isWire hi) (destructiveInstr_fits hw hloop hs).1
    exact ⟨w, f, hi, hf⟩
  | sendRead =>
    obtain ⟨hr, -, hloop, -⟩ := (positionOk_sendRead hd hline).mp hp
    obtain ⟨-, hrange, ha, hn, hk, -⟩ := (loopOk_read_chunk hr hline).mp hloop
    refine ⟨chunkInstr s.cfg s.work.a (readLen i) s.work.i, _, by simp [lineInstr, hline, hr],
      encodeFrame_chunkInstr (readChunk_pos h.config) ?_ (hn ▸ hk)⟩
    rwa [ha]

/-- Settles O49: a request's first line goes on whatever its arguments, and every frame line has a frame to send. -/
theorem stepAlwaysGoesOn : Obligations.StepAlwaysGoesOn := by
  intro s h
  cases hx : s.seqState with
  | ready => exact ⟨acceptStep s, by simp [step, h.config, hx]⟩
  | exec =>
    cases hd : decodeRequest s.req with
    | error e => exact ⟨_, step_reserved h.config hx hd⟩
    | ok i =>
      by_cases hl : s.pos.line = .entry
      · rw [step_entry h.config hx hd hl]
        exact exec_request_next (decodeRequest_isWire hd) s
      · obtain ⟨w, f, hf⟩ := h.atFrame hx hd hl
        obtain ⟨u, hu⟩ := exec_wire_next (lineInstr_isWire hf.instr) hf.frame s
        exact ⟨_, step_frame h.config hx hd hl hf.instr hu⟩

end Sys2Proof.Machine

/-! ## spec/70_reset_and_hazards.md: what the reset event leaves, and when it is refused -/

namespace Sys2Proof.Machine

/-- With no Xfer in progress the event is accepted: the reset state of the same configuration, with the channels as they stand
(R159, log entry 12). -/
theorem resetEvent_of_deselected {s : State} (h : s.cs = false) :
    s.resetEvent = .next { State.resetWith s.cfg with hostQ := s.hostQ, answers := s.answers, responses := s.responses } :=
  if_neg (Bool.eq_false_iff.mp h)

/-- An Xfer is indivisible, so while CS is asserted there is no reset (R168, U1). -/
theorem resetEvent_of_selected {s : State} (h : s.cs = true) : s.resetEvent = .refused .resetDuringXfer := if_pos h

/-- Settles O53: CS alone decides whether the event is accepted; the registers it then leaves are R43's, read off the reset state. -/
theorem resetEventClearsBlock : Obligations.ResetEventClearsBlock := by
  intro s
  refine ⟨fun hcs => ⟨_, resetEvent_of_deselected hcs, ?_⟩, resetEvent_of_selected⟩
  simp [State.resetWith]

end Sys2Proof.Machine
